-- ==== Sys2Proof/Word.lean ====
section
/-!
DEFINITION. The words of the block: bytes of the control bus and words of the duplex stream.
-/

namespace Sys2Proof

/-- One duplex-stream word: an unsigned number below `2^WORD_BITS`, stored and copied, never computed on (R12). Its width
is a parameter of the instance (spec/00_scope.md R9), so the bound is no part of the type (log 2). -/
abbrev Word := Nat

/-- One byte of the control bus (R12, R101). -/
abbrev Byte := BitVec 8

/-- A codec register address, `ADDR_BITS` = 7 (R9). -/
abbrev RegAddress := BitVec 7

/-- A codec register value, `VALUE_BITS` = 9 (R9). -/
abbrev RegValue := BitVec 9

end Sys2Proof
end

