-- ==== Sys2Proof/Config.lean ====
section
/-!
DEFINITION. The instance's parameters (spec/00_scope.md R9, R10), the checks made before the block runs (R261),
the small records its ports carry (R47, R51, R260), and the values the spec leaves free.
-/

namespace Sys2Proof

/-- The document's ControlRegister: one codec setting, "address (7 bits), value (9 bits)" (R9, R101). -/
structure ControlRegister where
  address : RegAddress
  value : RegValue
deriving DecidableEq, Repr, Inhabited

/-- What `RxStatusRead` returns: a record, with no bit layout (R47). -/
structure RxStatus where
  ready : Bool
  ovr : Bool
deriving DecidableEq, Repr, Inhabited

/-- What `TxStatusRead` returns: a record, with no bit layout (R47). -/
structure TxStatus where
  ready : Bool
  udr : Bool
deriving DecidableEq, Repr, Inhabited

/-- The bus's verdict on one byte (R51). -/
inductive Verdict where
  | ok
  | err
deriving DecidableEq, Repr, Inhabited

/-- What is recorded with a `BusFault`: the write and which of its two bytes failed (R260). -/
structure BusFaultRecord where
  address : RegAddress
  value : RegValue
  byte : Fin 2
deriving DecidableEq, Repr, Inhabited

/-- The three fatal causes, `HALT`'s operand (R260, R262). The spec's fourth code, `None`, is the absence of one. -/
inductive FatalCause where
  | busFault (record : BusFaultRecord)
  | overrun
  | underrun
deriving DecidableEq, Repr, Inhabited

/-- The cause codes of R260. -/
def FatalCause.code : FatalCause → Nat
  | .busFault _ => 1
  | .overrun => 2
  | .underrun => 3

/-- The parameters of one model instance (R9). They are data of the machine's state that no operation writes
(R48, log 1), so a statement about every state is one about every configuration. `N_BRINGUP` is the list's length. -/
structure Config where
  /-- `WORD_BITS`, the width of one stream word; no rule but the width itself reads it (92 D2) -/
  wordBits : Nat
  /-- `BUF_LEN`, the length of each of the two arrays -/
  bufLen : Nat
  /-- `DELAY`, the document's `delay_offset` -/
  delay : Nat
  /-- `FS`, frames per second; no rule of the block reads it -/
  fs : Nat
  /-- `BRINGUP_SEQ` -/
  bringupSeq : List ControlRegister
  /-- `ACT_IDX`, the index of the activate write -/
  actIdx : Nat
  /-- the premise `CLOCK_OK`: the excluded clock configuration passed its own check (R272, 92 D5) -/
  clockOk : Bool
deriving DecidableEq, Repr

/-- `N_BRINGUP` (R9). -/
def Config.nBringup (c : Config) : Nat := c.bringupSeq.length

/-- A configuration is well formed when `BUF_LEN ≥ 2`, `1 ≤ DELAY ≤ BUF_LEN − 1` (R10) and the clock check passed.
The arrays' equal length holds by construction: one `BUF_LEN` serves both. -/
def Config.wf (c : Config) : Bool :=
  decide (2 ≤ c.bufLen) && decide (1 ≤ c.delay) && decide (c.delay ≤ c.bufLen - 1) && c.clockOk

/-- The premises of R151 on the bring-up list that a model can state: the reset, activate and final writes are three
distinct writes in that order. Premises only: a list that breaks them still runs as given. -/
def Config.bringupOrdered (c : Config) : Bool :=
  decide (3 ≤ c.nBringup) && decide (1 ≤ c.actIdx) && decide (c.actIdx ≤ c.nBringup - 2)

/-- The premise of R150 on the list's addresses: each lies in `0x0..0xF`. A premise only (R110, 92 D34). -/
def Config.addressesInMap (c : Config) : Bool :=
  c.bringupSeq.all fun r => decide (r.address.toNat ≤ 15)

/-! ## Configuration time (R261) -/

/-- A configuration as it is written down, before the checks of R261. -/
structure RawConfig where
  wordBits : Nat
  topLen : Nat
  botLen : Nat
  delay : Nat
  fs : Nat
  bringupSeq : List (Nat × Nat)
  actIdx : Nat
  clockOk : Bool
deriving DecidableEq, Repr

/-- Why a configuration is refused at configuration time (R10, R109, R261). -/
inductive ConfigError where
  | arraysDiffer
  | bufLenTooSmall
  | delayOutOfRange
  | clockCheckFailed
  | operandTooWide (address value : Nat)
deriving DecidableEq, Repr

/-- The bring-up entries with their widths checked: the first entry too wide for its field is refused, none is
truncated (R109). -/
def acceptSeq : List (Nat × Nat) → Except ConfigError (List ControlRegister)
  | [] => .ok []
  | (a, v) :: rest =>
    if a < 128 ∧ v < 512 then
      match acceptSeq rest with
      | .ok rs => .ok (⟨BitVec.ofNat 7 a, BitVec.ofNat 9 v⟩ :: rs)
      | .error e => .error e
    else .error (.operandTooWide a v)

/-- The checks made before the block exists (R10, R109, R261): a refused configuration has no model instance. -/
def RawConfig.accept (r : RawConfig) : Except ConfigError Config :=
  if r.topLen ≠ r.botLen then .error .arraysDiffer
  else if r.topLen < 2 then .error .bufLenTooSmall
  else if r.delay < 1 ∨ r.topLen - 1 < r.delay then .error .delayOutOfRange
  else if r.clockOk = false then .error .clockCheckFailed
  else match acceptSeq r.bringupSeq with
    | .ok seq => .ok ⟨r.wordBits, r.topLen, r.delay, r.fs, seq, r.actIdx, true⟩
    | .error e => .error e

/-! ## The instance of the reset state -/

/-- One write of a bring-up list whose address lies in the document's map `0x0..0xF` (R150). -/
structure PlannedWrite where
  address : BitVec 4
  value : RegValue
deriving DecidableEq, Repr, Inhabited

/-- A bring-up list in the shape R151 gives: the reset write first, the activate write later, the final power-down
write last and after the activate write. -/
structure BringupPlan where
  resetWrite : PlannedWrite
  configure : List PlannedWrite
  activate : PlannedWrite
  afterActivate : List PlannedWrite
  powerDown : PlannedWrite
deriving DecidableEq, Repr, Inhabited

/-- A planned write as a codec register write. -/
def PlannedWrite.register (w : PlannedWrite) : ControlRegister :=
  ⟨w.address.setWidth 7, w.value⟩

/-- The plan's writes in order. -/
def BringupPlan.writes (p : BringupPlan) : List ControlRegister :=
  p.resetWrite.register ::
    (p.configure.map PlannedWrite.register ++
      p.activate.register :: (p.afterActivate.map PlannedWrite.register ++ [p.powerDown.register]))

/-- The activate write's index in `writes`. -/
def BringupPlan.actIdx (p : BringupPlan) : Nat := 1 + p.configure.length

/-- The bring-up list of the reset state's instance: open in the spec (92 D13), so an uninterpreted constant of the
shape R150 and R151 give (log 4, safe). -/
opaque Config.bringup : BringupPlan

/-- The instance the reset state stands for: the defaults of R9, and the open list. -/
def Config.canonical : Config where
  wordBits := 16
  bufLen := 24000
  delay := 19200
  fs := 48000
  bringupSeq := Config.bringup.writes
  actIdx := Config.bringup.actIdx
  clockOk := true

/-- `CS_HOLD_MIN` in nanoseconds (R9, R133): a duty on the implementation, read by no operation. -/
def Config.csHoldMinNs : Nat := 1000

/-! ## Free values

Each is uninterpreted: nothing can evaluate it. The step applies it to the counter `draws` of State. -/

/-- `RxStatusRead`'s answer where no answer stands in State (R54, log 5). -/
opaque Config.freeRxStatus : Nat → RxStatus

/-- `TxStatusRead`'s answer where no answer stands in State (R54, log 5). -/
opaque Config.freeTxStatus : Nat → TxStatus

/-- `RxDataRead`'s word where no answer stands in State (R52, R54, log 5); the port carries its low `WORD_BITS` bits. -/
opaque Config.freeRxWord : Nat → Nat

/-- The bus's verdict where no answer stands in State (R51, log 5). -/
opaque Config.freeVerdict : Nat → Verdict

/-- The level of `cs_n` after a `BusFault`: "a draw in {0, 1} at the halt" (R134, log 7). -/
opaque Config.freeCsLevel : Nat → Bool

/-- The record of a `HALT` presented in `Boot` by its key alone, which carries no operand (R104, R262, log 10). -/
opaque Config.freeBusFault : Nat → BusFaultRecord

/-- Whether a `HALT` presented in `Run` by its key alone records `Overrun`, else `Underrun` (R262, R266, log 10). -/
opaque Config.freeOverrun : Nat → Bool

/-- The word the reference stream sends in a slot it could not fill (R277, 93 M4, log 21). -/
opaque Config.freeSlotWord : Nat → Nat

end Sys2Proof
end

