-- ==== Sys2Proof/Syntax.lean ====
section
/-!
DEFINITION. The operations of spec/opcode_table.json, one constructor per row.
-/

namespace Sys2Proof

/-- One operation of the block (R104), in the order of the table. `CTRL_WRITE`'s operands are raw numbers, so that a
too wide one can be written down and refused (R109). `HALT`'s operand is no encoding field: `none` is the key alone
(log 10). The two reserved keys are rows of the table and have constructors; their meaning is the refusal R108 gives. -/
inductive Instr where
  | ctrlWrite (address value : Nat)
  | reserved0001
  | bringupStep
  | reserved0011
  | rxLt
  | rxLb
  | rxRt
  | rxRb
  | txLt
  | txLb
  | txRt
  | txRb
  | rxPoll
  | txPoll
  | schedStep
  | halt (cause : Option FatalCause)
deriving DecidableEq, Repr

end Sys2Proof
end

