-- ==== Sys2Proof/WellFormed.lean ====
section
/-!
DEFINITION. Well-formed operations: the operand widths of spec/30_encoding.md R107 and R109.
-/

namespace Sys2Proof

/-- An address that fits its 7 bits (R109). -/
def fitsAddress (a : Nat) : Bool := decide (a < 128)

/-- A value that fits its 9 bits (R109). -/
def fitsValue (v : Nat) : Bool := decide (v < 512)

/-- An operation whose operands can be encoded: only `CTRL_WRITE` can fail (R109). -/
def Instr.wf : Instr → Bool
  | .ctrlWrite a v => fitsAddress a && fitsValue v
  | .reserved0001 => true
  | .bringupStep => true
  | .reserved0011 => true
  | .rxLt => true
  | .rxLb => true
  | .rxRt => true
  | .rxRb => true
  | .txLt => true
  | .txLb => true
  | .txRt => true
  | .txRb => true
  | .rxPoll => true
  | .txPoll => true
  | .schedStep => true
  | .halt _ => true

end Sys2Proof
end

