-- ==== Sys2Proof/Decode.lean ====
section
/-!
DEFINITION. The two encodings of spec/30_encoding.md: the control-bus frame `CTRL_FRAME16` (R101 to R103) and the
dispatch key `DKEY4` (R104). A presented operation is one byte holding its key, then its operand bytes: the frame for
`CTRL_WRITE`, and for `HALT` a cause code, a frame and a byte index (the operand bytes are the model's, log 9).
-/

namespace Sys2Proof

/-! ## CTRL_FRAME16 -/

/-- `byte0 = ((address << 1) | value[8])[7:0]` (R101, R131). -/
def frameByte0 (a : RegAddress) (v : RegValue) : Byte :=
  (a.setWidth 8 <<< 1) ||| (v.extractLsb' 8 1).setWidth 8

/-- `byte1 = value[7:0]` (R101, R132). -/
def frameByte1 (v : RegValue) : Byte := v.extractLsb' 0 8

/-- The 16-bit frame, byte0 in the high bits (R101). -/
def frameOf (a : RegAddress) (v : RegValue) : BitVec 16 := frameByte0 a v ++ frameByte1 v

/-- `address = frame[15:9]` (R103). -/
def frameAddress (f : BitVec 16) : RegAddress := f.extractLsb' 9 7

/-- `value = frame[8:0]` (R103). -/
def frameValue (f : BitVec 16) : RegValue := f.extractLsb' 0 9

/-! ## DKEY4 -/

/-- The dispatch key of each operation (R104). -/
def Instr.key : Instr → BitVec 4
  | .ctrlWrite _ _ => 0b0000#4
  | .reserved0001 => 0b0001#4
  | .bringupStep => 0b0010#4
  | .reserved0011 => 0b0011#4
  | .rxLt => 0b0100#4
  | .rxLb => 0b0101#4
  | .rxRt => 0b0110#4
  | .rxRb => 0b0111#4
  | .txLt => 0b1000#4
  | .txLb => 0b1001#4
  | .txRt => 0b1010#4
  | .txRb => 0b1011#4
  | .rxPoll => 0b1100#4
  | .txPoll => 0b1101#4
  | .schedStep => 0b1110#4
  | .halt _ => 0b1111#4

/-- Why bytes are no operation's encoding. -/
inductive DecodeError where
  /-- there is no byte at all -/
  | noBytes
  /-- the first byte is above `0x0F`: no 4-bit key -/
  | notAKey (b : Byte)
  /-- an operand byte is missing -/
  | truncated (key : BitVec 4)
  /-- the operand bytes of a `HALT` name no cause -/
  | badHaltOperand
deriving DecidableEq, Repr

/-- The operation of a frame: total, every frame is one `CTRL_WRITE` (R103). -/
def decodeFrame (f0 f1 : Byte) : Instr :=
  .ctrlWrite (frameAddress (f0 ++ f1)).toNat (frameValue (f0 ++ f1)).toNat

/-- `CTRL_WRITE`'s operand bytes: the frame, byte0 first (R77, R107). -/
def decodeCtrlWrite : List Byte → Except DecodeError (Instr × List Byte)
  | f0 :: f1 :: rest => .ok (decodeFrame f0 f1, rest)
  | _ => .error (.truncated 0b0000#4)

/-- `HALT`'s operand bytes (log 9): a cause code of R260, then the failing write's frame and byte index, which are
zero for the causes that record nothing. Code 0 is the key alone. -/
def decodeHalt : List Byte → Except DecodeError (Instr × List Byte)
  | c :: f0 :: f1 :: b :: rest =>
    if c = 1#8 then
      if b = 0#8 then
        .ok (.halt (some (.busFault ⟨frameAddress (f0 ++ f1), frameValue (f0 ++ f1), 0⟩)), rest)
      else if b = 1#8 then
        .ok (.halt (some (.busFault ⟨frameAddress (f0 ++ f1), frameValue (f0 ++ f1), 1⟩)), rest)
      else .error .badHaltOperand
    else if f0 = 0#8 ∧ f1 = 0#8 ∧ b = 0#8 then
      if c = 0#8 then .ok (.halt none, rest)
      else if c = 2#8 then .ok (.halt (some .overrun), rest)
      else if c = 3#8 then .ok (.halt (some .underrun), rest)
      else .error .badHaltOperand
    else .error .badHaltOperand
  | _ => .error (.truncated 0b1111#4)

/-- The operation at the head of some bytes, with the bytes after it (R104). Total; what is no operation's encoding is
rejected by name. -/
def decode : List Byte → Except DecodeError (Instr × List Byte)
  | [] => .error .noBytes
  | k :: rest =>
    match k.toNat with
    | 0 => decodeCtrlWrite rest
    | 1 => .ok (.reserved0001, rest)
    | 2 => .ok (.bringupStep, rest)
    | 3 => .ok (.reserved0011, rest)
    | 4 => .ok (.rxLt, rest)
    | 5 => .ok (.rxLb, rest)
    | 6 => .ok (.rxRt, rest)
    | 7 => .ok (.rxRb, rest)
    | 8 => .ok (.txLt, rest)
    | 9 => .ok (.txLb, rest)
    | 10 => .ok (.txRt, rest)
    | 11 => .ok (.txRb, rest)
    | 12 => .ok (.rxPoll, rest)
    | 13 => .ok (.txPoll, rest)
    | 14 => .ok (.schedStep, rest)
    | 15 => decodeHalt rest
    | _ => .error (.notAKey k)

/-! ## Encoding -/

/-- A key as its byte. -/
def keyByte (k : BitVec 4) : Byte := k.setWidth 8

/-- `HALT`'s operand bytes (log 9). -/
def encodeHaltOperand : Option FatalCause → List Byte
  | none => [0#8, 0#8, 0#8, 0#8]
  | some (.busFault r) =>
    [1#8, frameByte0 r.address r.value, frameByte1 r.value, BitVec.ofNat 8 r.byte.val]
  | some .overrun => [2#8, 0#8, 0#8, 0#8]
  | some .underrun => [3#8, 0#8, 0#8, 0#8]

/-- The operand bytes that follow an operation's key. -/
def encodeOperands : Instr → List Byte
  | .ctrlWrite a v =>
    [frameByte0 (BitVec.ofNat 7 a) (BitVec.ofNat 9 v), frameByte1 (BitVec.ofNat 9 v)]
  | .reserved0001 => []
  | .bringupStep => []
  | .reserved0011 => []
  | .rxLt => []
  | .rxLb => []
  | .rxRt => []
  | .rxRb => []
  | .txLt => []
  | .txLb => []
  | .txRt => []
  | .txRb => []
  | .rxPoll => []
  | .txPoll => []
  | .schedStep => []
  | .halt c => encodeHaltOperand c

/-- The bytes of an operation: its key (R104), then its operand bytes. -/
def encode (i : Instr) : List Byte := keyByte i.key :: encodeOperands i

/-! ## The opcode table's words -/

/-- The bytes of a table word of `nbits` bits, the bits above it zero up to the longest operation (5 bytes): a word of
at most one byte is a key, one of two bytes is a frame (R100), laid out byte0 first after its key.
DESIGN CHOICE (log 23): the bare key `0b0000` as a table word is `CTRL_WRITE 0x00, 0x000`, its operand bytes being zero
like every bit above the word; it does not take the pair `BRINGUP_SEQ[boot_idx]` that R107 gives the write inside
`BRINGUP_STEP`. The bare key `0b1111` is log 10's. -/
def tableBytes (nbits w : Nat) : Option (List Byte) :=
  if nbits ≤ 8 then
    if w < 256 then some [BitVec.ofNat 8 w, 0#8, 0#8, 0#8, 0#8] else none
  else if nbits ≤ 16 then
    if w < 65536 then some [0#8, BitVec.ofNat 8 (w / 256), BitVec.ofNat 8 (w % 256)] else none
  else none

/-- The operation the decoder reads from a table word; `none` where it refuses. -/
def decodeTableWord (nbits w : Nat) : Option Instr :=
  match tableBytes nbits w with
  | none => none
  | some bs =>
    match decode bs with
    | .ok (i, _) => some i
    | .error _ => none

end Sys2Proof
end

