-- ==== Sys2Proof/Machine/State.lean ====
section
/-!
DEFINITION. The block's state (spec/10_state.md R31 to R49, R57), the model's own fields beside it, the reasons a step
stops, and the state after reset (spec/70_reset_and_hazards.md R290).
-/

namespace Sys2Proof.Machine

/-- The controller's top-level state (R32). -/
inductive Mode where
  | boot
  | run
  | halted
deriving DecidableEq, Repr

/-- The document's CodecState (R34). -/
inductive CodecState where
  | reset
  | configured
  | active
deriving DecidableEq, Repr

/-- The polling loop's position, the program counter of mode `Run` (R36). -/
inductive SchedPc where
  | rxPoll
  | rxService
  | txPoll
  | txService
deriving DecidableEq, Repr

/-- The document's ChannelPhase (R38, R39). -/
inductive ChannelPhase where
  | leftTop
  | leftBot
  | rightTop
  | rightBot
deriving DecidableEq, Repr

/-- The two arrays of the delay buffer, "selected by name, not by address bit" (R70). -/
inductive BufferName where
  | top
  | bot
deriving DecidableEq, Repr

/-- One interface access (R50, R58). A read's event also carries the answer (log 8). -/
inductive Event where
  | csSet (level : Bool)
  | busXfer (byte : Byte)
  | csHold
  | rxStatusRead (status : RxStatus)
  | rxDataRead (word : Word)
  | txStatusRead (status : TxStatus)
  | txDataWrite (word : Word)
deriving DecidableEq, Repr

/-- The delay buffer (R43, R70): for each array the cells that are not zero, by index. An unlisted cell reads as `0`,
its reset value (R43, R72). Cells are whole words, not bytes (R76, log 12). -/
structure Memory where
  top : List (Nat × Word)
  bot : List (Nat × Word)
deriving DecidableEq, Repr

/-- One array's canonical form: indices strictly rising, no listed zero. -/
def cellsWf : List (Nat × Word) → Bool
  | [] => true
  | [(_, w)] => decide (w ≠ 0)
  | (i, w) :: (j, v) :: rest =>
    decide (w ≠ 0) && decide (i < j) && cellsWf ((j, v) :: rest)

/-- The memory's canonical form, so that equal contents are equal data. -/
def Memory.wf (m : Memory) : Bool := cellsWf m.top && cellsWf m.bot

/-- The environment's coming answers, one list for each port, and what the reset source does at each coming step (R30,
R54, R278). The model's own field: an answer is the head of its list, or a free value when the list is empty (log 5).
Any step may be a reset; past the end of `resets` the source is quiet (log 15). -/
structure Env where
  rxStatus : List RxStatus
  rxWords : List Nat
  txStatus : List TxStatus
  busVerdicts : List Verdict
  resets : List Bool
deriving DecidableEq, Repr

/-- The machine's state. -/
structure State where
  /-- the instance's parameters: no operation writes them (R9, R48, log 1) -/
  config : Config
  /-- R32 -/
  mode : Mode
  /-- R33; `none` is the spec's `None` -/
  haltCause : Option FatalCause
  /-- R34 -/
  codecState : CodecState
  /-- R37 -/
  bootIdx : Nat
  /-- R36 -/
  schedPc : SchedPc
  /-- R38 -/
  rxPhase : ChannelPhase
  /-- R39 -/
  txPhase : ChannelPhase
  /-- the write cursor (R41) -/
  wc : Nat
  /-- the read cursor (R42) -/
  rc : Nat
  /-- the arrays `top` and `bot` (R43) -/
  mem : Memory
  /-- the chip-select line, active low: `true` is deasserted (R44) -/
  csN : Bool
  /-- ghost: completed `RX_LB` operations (R49) -/
  nrx : Nat
  /-- ghost: completed `TX_LB` operations (R49) -/
  ntx : Nat
  /-- the model's own: the interface accesses since reset, first one first (R58, log 8) -/
  trace : List Event
  /-- the model's own: the environment's answers (log 5) -/
  env : Env
  /-- the model's own: how many free values have been drawn (log 6) -/
  draws : Nat
  /-- the model's own: operations a harness has presented and no step has taken yet (R108, log 9) -/
  harness : List Byte
deriving DecidableEq, Repr

/-- Why the machine stops. -/
inductive Fault where
  /-- A step in mode `Halted`: no operation is enabled, the block is stuck until reset (R105, R262, 93 M5). Raised by
  `step`. Safe: the spec says that no step exists. -/
  | halted
  /-- A buffer access outside `0..BUF_LEN−1`: "must fault, not wrap or clamp" (R79). Raised by the operations that
  access the buffer. Safe. -/
  | bufferIndex (name : BufferName) (index : Nat)
  /-- `BRINGUP_STEP` with `boot_idx ≥ N_BRINGUP`, which R152 excludes (log 13). Raised by `BRINGUP_STEP`. Safe. -/
  | bringupIndex (index : Nat)
deriving DecidableEq, Repr

/-- Why an operation is refused. -/
inductive Refusal where
  /-- The instruction has no meaning in this model. Raised by `exec`'s arms alone. Safe. -/
  | notModelled (mnemonic : String)
  /-- A reserved dispatch key was presented (R108). Safe. -/
  | reservedKey (key : BitVec 4)
  /-- A `CTRL_WRITE` operand is wider than its field, refused before any access (R109). Safe. -/
  | operandTooWide (address value : Nat)
  /-- The configuration is not well formed, so there is no run (R10, R261). Raised by `step`. Safe. -/
  | configNotWellFormed
  /-- `SCHED_STEP` where its requirement "s.mode = Run, s.sched_pc = RX_POLL" fails (R235). Safe. -/
  | notAtLoopStart
  /-- `CTRL_WRITE` outside mode `Boot`, the one mode it is performed in (R137). Raised by `CTRL_WRITE`. Safe. -/
  | notInBoot
  /-- An operation was presented where the block does not perform it: `next_op` selects another (R52, R53, R105, R137),
  or a `HALT`'s cause is none of its mode's (R266). Raised by `step` (log 11). Safe for the block itself, which never
  forms it. -/
  | outOfPlace (key : BitVec 4)
  /-- The presented bytes are no operation's encoding (R100, log 9). Raised by `step`. Safe. -/
  | undecodable (error : DecodeError)
deriving DecidableEq, Repr

/-- The environment of the reset state: the spec leaves it unspecified (R57, R292), so no answer stands ready and each
one is a free value (log 5). -/
def Env.none : Env := ⟨[], [], [], [], []⟩

/-- The reset values of R57 for an instance with parameters `c`. -/
def State.resetOf (c : Config) : State where
  config := c
  mode := .boot
  haltCause := none
  codecState := .reset
  bootIdx := 0
  schedPc := .rxPoll
  rxPhase := .leftTop
  txPhase := .leftTop
  wc := 0
  rc := c.bufLen - c.delay
  mem := ⟨[], []⟩
  csN := true
  nrx := 0
  ntx := 0
  trace := []
  env := Env.none
  draws := 0
  harness := []

/-- The machine right after reset (R57, R290), for the instance of R9's defaults (log 3, log 4). -/
def State.reset : State := State.resetOf Config.canonical

end Sys2Proof.Machine
end

