-- ==== Sys2Proof/Machine/Ops.lean ====
section
/-!
DEFINITION. The named operations every meaning is written over: the buffer primitives (spec/20_memory.md R72 to R74),
the interface primitives (spec/10_state.md R50), entering the fatal halt (spec/60_exceptions.md R262), and the reset
that alone leaves it (R268, spec/70_reset_and_hazards.md R290).
-/

namespace Sys2Proof.Machine

/-- What a step or an operation answers. -/
abbrev Result := Host.Outcome State Fault Refusal

/-- Run `f` on the next state; a fault or a refusal ends the operation. -/
def andThen (r : Result) (f : State → Result) : Result :=
  match r with
  | .next s => f s
  | .fault e => .fault e
  | .refused e => .refused e

/-! ## Phases and cursors -/

/-- The codes of ChannelPhase (R106). -/
def ChannelPhase.code : ChannelPhase → BitVec 2
  | .leftTop => 0b00#2
  | .leftBot => 0b01#2
  | .rightTop => 0b10#2
  | .rightBot => 0b11#2

/-- The successor of a phase, "cycles in that fixed order" (R40, R106). -/
def ChannelPhase.next : ChannelPhase → ChannelPhase
  | .leftTop => .leftBot
  | .leftBot => .rightTop
  | .rightTop => .rightBot
  | .rightBot => .leftTop

/-- `Adv(c) = (c + 1) mod BUF_LEN` (R74). -/
def adv (bufLen c : Nat) : Nat := (c + 1) % bufLen

/-! ## The delay buffer -/

/-- The word an array holds at an index; an unlisted cell holds `0` (R43, R72). -/
def cellRead (i : Nat) : List (Nat × Word) → Word
  | [] => 0
  | (j, w) :: rest => if j = i then w else cellRead i rest

/-- Take every listing of an index out of an array. -/
def cellErase (i : Nat) : List (Nat × Word) → List (Nat × Word)
  | [] => []
  | (j, w) :: rest => if j = i then cellErase i rest else (j, w) :: cellErase i rest

/-- Put a cell before the first larger index. -/
def cellInsert (i : Nat) (v : Word) : List (Nat × Word) → List (Nat × Word)
  | [] => [(i, v)]
  | (j, w) :: rest => if i < j then (i, v) :: (j, w) :: rest else (j, w) :: cellInsert i v rest

/-- An array with one cell replaced, in canonical form. -/
def cellWrite (i : Nat) (v : Word) (cells : List (Nat × Word)) : List (Nat × Word) :=
  if v = 0 then cellErase i cells else cellInsert i v (cellErase i cells)

/-- The cells of the named array. -/
def Memory.cells (m : Memory) : BufferName → List (Nat × Word)
  | .top => m.top
  | .bot => m.bot

/-- The word in a cell of the buffer (R72). -/
def Memory.read (m : Memory) (name : BufferName) (i : Nat) : Word := cellRead i (m.cells name)

/-- The buffer with one cell replaced; the other array is unchanged (R73). -/
def Memory.write (m : Memory) (name : BufferName) (i : Nat) (v : Word) : Memory :=
  match name with
  | .top => { m with top := cellWrite i v m.top }
  | .bot => { m with bot := cellWrite i v m.bot }

/-- `BufRead(arr, i)` (R72), passed to `f`; an index out of range faults (R79). -/
def bufRead (name : BufferName) (i : Nat) (s : State) (f : Word → Result) : Result :=
  if i < s.config.bufLen then f (s.mem.read name i) else .fault (.bufferIndex name i)

/-- `BufWrite(arr, i, v)` (R73); an index out of range faults (R79). -/
def bufWrite (name : BufferName) (i : Nat) (v : Word) (s : State) : Result :=
  if i < s.config.bufLen then .next { s with mem := s.mem.write name i v }
  else .fault (.bufferIndex name i)

/-! ## The interface primitives (R50) -/

/-- The counter after an access whose answers stand in `answers`: it counts the free values drawn (log 6). -/
def drawsAfter {α : Type} (answers : List α) (n : Nat) : Nat :=
  match answers with
  | [] => n + 1
  | _ :: _ => n

/-- `CsSet(level)`: `cs_n <- level` (R50). -/
def csSet (level : Bool) (s : State) : State :=
  { s with csN := level, trace := s.trace ++ [.csSet level] }

/-- `CsHold()`: an event, with no duration (R133). -/
def csHold (s : State) : State := { s with trace := s.trace ++ [.csHold] }

/-- The verdict the bus gives on the next byte (R51). -/
def busAnswer (s : State) : Verdict :=
  match s.env.busVerdicts with
  | [] => Config.freeVerdict s.draws
  | v :: _ => v

/-- The state after `BusXfer(byte)` (R50); its verdict is `busAnswer` of the state before. -/
def busXfer (byte : Byte) (s : State) : State :=
  { s with
    trace := s.trace ++ [.busXfer byte]
    env := { s.env with busVerdicts := s.env.busVerdicts.tail }
    draws := drawsAfter s.env.busVerdicts s.draws }

/-- The record the next `RxStatusRead` returns (R52). -/
def rxStatusAnswer (s : State) : RxStatus :=
  match s.env.rxStatus with
  | [] => Config.freeRxStatus s.draws
  | st :: _ => st

/-- The state after `RxStatusRead()` (R50, R52). -/
def rxStatusRead (s : State) : State :=
  { s with
    trace := s.trace ++ [.rxStatusRead (rxStatusAnswer s)]
    env := { s.env with rxStatus := s.env.rxStatus.tail }
    draws := drawsAfter s.env.rxStatus s.draws }

/-- What a port of `WORD_BITS` lines carries of a number: its low bits (R9, R80, log 2). -/
def portWord (c : Config) (n : Nat) : Word := n % 2 ^ c.wordBits

/-- The word the next `RxDataRead` returns (R52). -/
def rxWordAnswer (s : State) : Word :=
  match s.env.rxWords with
  | [] => portWord s.config (Config.freeRxWord s.draws)
  | w :: _ => portWord s.config w

/-- The state after `RxDataRead()`, which consumes the word (R50, R52). -/
def rxDataRead (s : State) : State :=
  { s with
    trace := s.trace ++ [.rxDataRead (rxWordAnswer s)]
    env := { s.env with rxWords := s.env.rxWords.tail }
    draws := drawsAfter s.env.rxWords s.draws }

/-- The record the next `TxStatusRead` returns (R53). -/
def txStatusAnswer (s : State) : TxStatus :=
  match s.env.txStatus with
  | [] => Config.freeTxStatus s.draws
  | st :: _ => st

/-- The state after `TxStatusRead()` (R50, R53). -/
def txStatusRead (s : State) : State :=
  { s with
    trace := s.trace ++ [.txStatusRead (txStatusAnswer s)]
    env := { s.env with txStatus := s.env.txStatus.tail }
    draws := drawsAfter s.env.txStatus s.draws }

/-- The state after `TxDataWrite(w)`, which hands one word to the stream (R50, R53). -/
def txDataWrite (w : Word) (s : State) : State := { s with trace := s.trace ++ [.txDataWrite w] }

/-! ## The fatal halt, and reset -/

/-- `raise Halt(cause)` (R262): `mode` and `halt_cause`, and for a `BusFault` a free level on `cs_n` (R134, log 7).
Nothing else changes and no access is made. -/
def raiseHalt (cause : FatalCause) (s : State) : State :=
  match cause with
  | .busFault r =>
    { s with
      mode := .halted
      haltCause := some (.busFault r)
      csN := Config.freeCsLevel s.draws
      draws := s.draws + 1 }
  | .overrun => { s with mode := .halted, haltCause := some .overrun }
  | .underrun => { s with mode := .halted, haltCause := some .underrun }

/-- Whether the reset source acts at this step (R278, R290, log 15). -/
def resetNow (s : State) : Bool := s.env.resets.headD false

/-- The state once the reset source's part in this step is over. -/
def resetPassed (s : State) : State := { s with env := { s.env with resets := s.env.resets.tail } }

/-- The reset event (R290): every piece of the block's state takes its reset value, in any mode. There is no other way
out of `Halted` (R268). The parameters stay (R48), the environment is not set by it (R292), and what a harness had
presented is dropped (log 15). -/
def takeReset (s : State) : State :=
  { State.resetOf s.config with env := (resetPassed s).env, draws := s.draws }

end Sys2Proof.Machine
end

