-- ==== Sys2Proof/Machine/Flags.lean ====
section
/-!
DEFINITION. The flags a poll reads (spec/10_state.md R46, R47). The block owns none; what a poll computes from a status
record is which of three ways it goes, the fault flag first (spec/45_scheduler.md R233).
-/

namespace Sys2Proof.Machine

/-- What a poll does with the status it read. -/
inductive PollVerdict where
  | fault
  | service
  | idle
deriving DecidableEq, Repr

/-- `RX_POLL`'s reading of its status: overrun wins, then ready (R232, R233). -/
def rxVerdict (st : RxStatus) : PollVerdict :=
  if st.ovr then .fault else if st.ready then .service else .idle

/-- `TX_POLL`'s reading of its status: underrun wins, then ready (R233, R234). -/
def txVerdict (st : TxStatus) : PollVerdict :=
  if st.udr then .fault else if st.ready then .service else .idle

end Sys2Proof.Machine
end

