-- ==== Sys2Proof/Machine/Operands.lean ====
section
/-!
DEFINITION. Operand assembly (spec/30_encoding.md R107). There are two operand forms: the pair `CTRL_WRITE` takes from
the bring-up list, and the word an RX operation takes from the stream, as is. No operation has an immediate.
-/

namespace Sys2Proof.Machine

/-- The next bring-up write, `BRINGUP_SEQ[s.boot_idx]` (R107, R152). -/
def bringupOperand (s : State) : Option ControlRegister := s.config.bringupSeq[s.bootIdx]?

/-- The operand of an RX operation: the word `RxDataRead` returns, with the state after the read (R107, R170). -/
def withRxOperand (s : State) (f : Word → State → Result) : Result := f (rxWordAnswer s) (rxDataRead s)

/-- The cause of a presented `HALT`, with the state after it is known: the operand, or, where the key stood alone, a free
one of the causes found in the mode (R266): a `BusFault` in `Boot`, a stream fault elsewhere (log 10). -/
def haltOperand (cause : Option FatalCause) (s : State) : FatalCause × State :=
  match cause with
  | some c => (c, s)
  | none =>
    (if s.mode = .boot then .busFault (Config.freeBusFault s.draws)
      else if Config.freeOverrun s.draws then .overrun else .underrun,
      { s with draws := s.draws + 1 })

end Sys2Proof.Machine
end

