-- ==== Sys2Proof/Machine/ControlChannel.lean ====
section
/-!
DEFINITION. The control channel (spec/40_control_channel.md): one frame on the bus, and `CTRL_WRITE`.
-/

namespace Sys2Proof.Machine

/-- The body of `CTRL_WRITE` (R130): the verdict on the whole frame, and the state after it. On `err` the halt has been
taken and nothing follows it (R134, R135). -/
def sendFrame (r : ControlRegister) (s : State) : Verdict × State :=
  let s0 := csSet false s
  let s1 := busXfer (frameByte0 r.address r.value) s0
  if busAnswer s0 = .err then (.err, raiseHalt (.busFault ⟨r.address, r.value, 0⟩) s1)
  else
    let s2 := busXfer (frameByte1 r.value) s1
    if busAnswer s1 = .err then (.err, raiseHalt (.busFault ⟨r.address, r.value, 1⟩) s2)
    else (.ok, csHold (csSet true s2))

/-- `CTRL_WRITE address, value` (R130). An operand wider than its field is refused before any access (R109), and so
is a write outside `Boot`, the one mode the channel is used in (R137). -/
def execCtrlWrite (address value : Nat) (s : State) : Result :=
  if fitsAddress address && fitsValue value then
    if s.mode = .boot then .next (sendFrame ⟨BitVec.ofNat 7 address, BitVec.ofNat 9 value⟩ s).2
    else .refused .notInBoot
  else .refused (.operandTooWide address value)

/-- The reserved key `0b0001` (R108): refused. -/
def execReserved0001 (_s : State) : Result := .refused (.reservedKey 0b0001#4)

end Sys2Proof.Machine
end

