-- ==== Sys2Proof/Machine/Bringup.lean ====
section
/-!
DEFINITION. The bring-up sequencer (spec/41_bringup.md): `BRINGUP_STEP`.
-/

namespace Sys2Proof.Machine

/-- What a completed bring-up write does to the block's record (R152): `boot_idx` advances, `Configured` is entered when
it reaches `ACT_IDX` (R153), and `Active` with mode `Run` when it reaches `N_BRINGUP` (R154). -/
def bringupAdvance (s : State) : State :=
  let s1 := { s with bootIdx := s.bootIdx + 1 }
  let s2 := if s1.bootIdx = s1.config.actIdx then { s1 with codecState := .configured } else s1
  if s2.bootIdx = s2.config.nBringup then
    { s2 with codecState := .active, mode := .run, schedPc := .rxPoll }
  else s2

/-- `BRINGUP_STEP` (R152): issue the next write of the list; on a bus fault `boot_idx` and `codec_state` stay. -/
def execBringupStep (s : State) : Result :=
  match bringupOperand s with
  | none => .fault (.bringupIndex s.bootIdx)
  | some r =>
    .next (match sendFrame r s with
      | (.ok, t) => bringupAdvance t
      | (.err, t) => t)

/-- The reserved key `0b0011` (R108): refused. -/
def execReserved0011 (_s : State) : Result := .refused (.reservedKey 0b0011#4)

end Sys2Proof.Machine
end

