-- ==== Sys2Proof/Machine/Halt.lean ====
section
/-!
DEFINITION. The fatal halt as an operation of its own (spec/60_exceptions.md R262).
-/

namespace Sys2Proof.Machine

/-- `HALT cause` (R262): enter the absorbing state `Halted`. Presented by its key alone, the cause is free (log 10). -/
def execHalt (cause : Option FatalCause) (s : State) : Result :=
  .next (raiseHalt (haltOperand cause s).1 (haltOperand cause s).2)

end Sys2Proof.Machine
end

