-- ==== Sys2Proof/Machine/RxDispatcher.lean ====
section
/-!
DEFINITION. The RX frame dispatcher (spec/42_rx_dispatcher.md): four operations, one for each phase.
-/

namespace Sys2Proof.Machine

/-- `RX_LT` (R171): the left channel's first sub-word into `top[wc]`. -/
def execRxLt (s : State) : Result :=
  withRxOperand s fun w s1 =>
    andThen (bufWrite .top s1.wc w s1) fun s2 =>
      .next { s2 with rxPhase := .leftBot, schedPc := .txPoll }

/-- `RX_LB` (R172): the left channel's second sub-word into `bot[wc]`, then the write cursor advances. -/
def execRxLb (s : State) : Result :=
  withRxOperand s fun w s1 =>
    andThen (bufWrite .bot s1.wc w s1) fun s2 =>
      .next { s2 with
        wc := adv s2.config.bufLen s2.wc
        nrx := s2.nrx + 1
        rxPhase := .rightTop
        schedPc := .txPoll }

/-- `RX_RT` (R173): the right channel's first sub-word is read and discarded. -/
def execRxRt (s : State) : Result :=
  withRxOperand s fun _ s1 => .next { s1 with rxPhase := .rightBot, schedPc := .txPoll }

/-- `RX_RB` (R174): the right channel's second sub-word is read and discarded; the frame ends. -/
def execRxRb (s : State) : Result :=
  withRxOperand s fun _ s1 => .next { s1 with rxPhase := .leftTop, schedPc := .txPoll }

end Sys2Proof.Machine
end

