-- ==== Sys2Proof/Machine/TxDispatcher.lean ====
section
/-!
DEFINITION. The TX frame dispatcher (spec/43_tx_dispatcher.md): four operations, one for each phase.
-/

namespace Sys2Proof.Machine

/-- `TX_LT` (R191): send `top[rc]`. -/
def execTxLt (s : State) : Result :=
  bufRead .top s.rc s fun w =>
    .next { txDataWrite w s with txPhase := .leftBot, schedPc := .rxPoll }

/-- `TX_LB` (R192): send `bot[rc]`, then the read cursor advances. -/
def execTxLb (s : State) : Result :=
  bufRead .bot s.rc s fun w =>
    .next { txDataWrite w s with
      rc := adv s.config.bufLen s.rc
      ntx := s.ntx + 1
      txPhase := .rightTop
      schedPc := .rxPoll }

/-- `TX_RT` (R193): send silence in the right channel's first sub-word. -/
def execTxRt (s : State) : Result :=
  .next { txDataWrite 0 s with txPhase := .rightBot, schedPc := .rxPoll }

/-- `TX_RB` (R194): send silence in the right channel's second sub-word; the frame ends. -/
def execTxRb (s : State) : Result :=
  .next { txDataWrite 0 s with txPhase := .leftTop, schedPc := .rxPoll }

end Sys2Proof.Machine
end

