-- ==== Sys2Proof/Machine/Scheduler.lean ====
section
/-!
DEFINITION. The polling scheduler (spec/45_scheduler.md): `RX_POLL`, `TX_POLL` and the composite `SCHED_STEP`.
-/

namespace Sys2Proof.Machine

/-- `RX_POLL` (R232): one status read; overrun halts, before the ready test. -/
def execRxPoll (s : State) : Result :=
  .next (match rxVerdict (rxStatusAnswer s) with
    | .fault => raiseHalt .overrun (rxStatusRead s)
    | .service => { rxStatusRead s with schedPc := .rxService }
    | .idle => { rxStatusRead s with schedPc := .txPoll })

/-- `TX_POLL` (R234): one status read; underrun halts, before the ready test. -/
def execTxPoll (s : State) : Result :=
  .next (match txVerdict (txStatusAnswer s) with
    | .fault => raiseHalt .underrun (txStatusRead s)
    | .service => { txStatusRead s with schedPc := .txService }
    | .idle => { txStatusRead s with schedPc := .rxPoll })

/-- The RX operation `rx_phase` selects (R170, R235). -/
def rxService (s : State) : Result :=
  match s.rxPhase with
  | .leftTop => execRxLt s
  | .leftBot => execRxLb s
  | .rightTop => execRxRt s
  | .rightBot => execRxRb s

/-- The TX operation `tx_phase` selects (R190, R235). -/
def txService (s : State) : Result :=
  match s.txPhase with
  | .leftTop => execTxLt s
  | .leftBot => execTxLb s
  | .rightTop => execTxRt s
  | .rightBot => execTxRb s

/-- The second half of an iteration: `TX_POLL`, then the selected TX operation if it saw ready (R235). -/
def txHalf (s : State) : Result :=
  andThen (execTxPoll s) fun s1 =>
    match s1.mode, s1.schedPc with
    | .halted, _ => .next s1
    | _, .txService => txService s1
    | _, _ => .next s1

/-- `SCHED_STEP` (R113, R235): one iteration from `sched_pc = RX_POLL`. It ends at a halt. Where its requirement
"s.mode = Run, s.sched_pc = RX_POLL" fails it has no meaning and is refused (log 11). -/
def execSchedStep (s : State) : Result :=
  match s.mode, s.schedPc with
  | .run, .rxPoll =>
    andThen (execRxPoll s) fun s1 =>
      match s1.mode, s1.schedPc with
      | .halted, _ => .next s1
      | _, .rxService => andThen (rxService s1) txHalf
      | _, _ => txHalf s1
  | _, _ => .refused .notAtLoopStart

end Sys2Proof.Machine
end

