-- ==== Sys2Proof/Machine/Dispatch.lean ====
section
/-!
DEFINITION. The meaning of each operation: one arm per constructor of Instr.
-/

namespace Sys2Proof.Machine

def exec (i : Instr) (s : State) : Host.Outcome State Fault Refusal :=
  match i with
  | .ctrlWrite address value => Sys2Proof.Machine.execCtrlWrite address value s
  | .reserved0001 => Sys2Proof.Machine.execReserved0001 s
  | .bringupStep => Sys2Proof.Machine.execBringupStep s
  | .reserved0011 => Sys2Proof.Machine.execReserved0011 s
  | .rxLt => Sys2Proof.Machine.execRxLt s
  | .rxLb => Sys2Proof.Machine.execRxLb s
  | .rxRt => Sys2Proof.Machine.execRxRt s
  | .rxRb => Sys2Proof.Machine.execRxRb s
  | .txLt => Sys2Proof.Machine.execTxLt s
  | .txLb => Sys2Proof.Machine.execTxLb s
  | .txRt => Sys2Proof.Machine.execTxRt s
  | .txRb => Sys2Proof.Machine.execTxRb s
  | .rxPoll => Sys2Proof.Machine.execRxPoll s
  | .txPoll => Sys2Proof.Machine.execTxPoll s
  | .schedStep => Sys2Proof.Machine.execSchedStep s
  | .halt cause => Sys2Proof.Machine.execHalt cause s

end Sys2Proof.Machine
end

