-- ==== Sys2Proof/Machine/Select.lean ====
section
/-!
DEFINITION. Which operation runs next: `next_op` of spec/30_encoding.md R105, the operations a harness presents
(R108), and how the machine is put where a given operation runs next.
-/

namespace Sys2Proof.Machine

/-- `next_op(s)` as a dispatch key (R105): computed from the control state alone, with no input from the environment;
`none` in mode `Halted`. -/
def nextKey (s : State) : Option (BitVec 4) :=
  match s.mode with
  | .halted => none
  | .boot => some 0b0010#4
  | .run =>
    match s.schedPc with
    | .rxPoll => some 0b1100#4
    | .rxService => some (0b01#2 ++ s.rxPhase.code)
    | .txPoll => some 0b1101#4
    | .txService => some (0b10#2 ++ s.txPhase.code)

/-- The bytes of the operation the next step runs: what a harness presented, else the key `next_op` gives. In mode
`Halted` there is none, whatever is presented (R262, R269). -/
def operationBytes (s : State) : Option (List Byte) :=
  match nextKey s with
  | none => none
  | some k =>
    match s.harness with
    | [] => some [keyByte k]
    | b :: bs => some (b :: bs)

/-- Whether a step performs an operation here. One that `next_op` selects is performed only where it selects it: a data
read only at `RX_SERVICE` (R52), a data write only at `TX_SERVICE` (R53), the control bus only in `Boot` (R137). A
`BusFault` is found only in `Boot`, a stream fault only in `Run` (R266). The operations `next_op` never selects state
their own requirements in their meanings. What the block selects itself is always in place (log 11). -/
def placed (i : Instr) (s : State) : Bool :=
  match i with
  | .ctrlWrite _ _ => true
  | .reserved0001 => true
  | .bringupStep => nextKey s == some i.key
  | .reserved0011 => true
  | .rxLt => nextKey s == some i.key
  | .rxLb => nextKey s == some i.key
  | .rxRt => nextKey s == some i.key
  | .rxRb => nextKey s == some i.key
  | .txLt => nextKey s == some i.key
  | .txLb => nextKey s == some i.key
  | .txRt => nextKey s == some i.key
  | .txRb => nextKey s == some i.key
  | .rxPoll => nextKey s == some i.key
  | .txPoll => nextKey s == some i.key
  | .schedStep => true
  | .halt none => true
  | .halt (some (.busFault _)) => s.mode == .boot
  | .halt (some .overrun) => s.mode == .run
  | .halt (some .underrun) => s.mode == .run

/-- What the reset source does from this step on, with nothing done at this step. -/
def holdReset (resets : List Bool) : List Bool :=
  match resets with
  | [] => []
  | _ :: rest => false :: rest

/-- The state with no halt standing and no reset at this step, so that a step can run an operation. -/
def unhalt (s : State) : State :=
  let s1 := { s with env := { s.env with resets := holdReset s.env.resets }, harness := [] }
  match s.mode with
  | .halted => { s1 with mode := .boot, haltCause := none }
  | _ => s1

/-- Put the machine where its next step runs `i` (log 9): an operation `next_op` selects, by the control state that
selects it ("selected_when" of opcode_table.json); any other by its bytes, as a harness presents them, in the mode the
spec performs it in (R137, R235). -/
def selectOperation (i : Instr) (s : State) : State :=
  let s1 := unhalt s
  match i with
  | .ctrlWrite a v => { s1 with mode := .boot, harness := encode (.ctrlWrite a v) }
  | .reserved0001 => { s1 with harness := encode .reserved0001 }
  | .bringupStep => { s1 with mode := .boot }
  | .reserved0011 => { s1 with harness := encode .reserved0011 }
  | .rxLt => { s1 with mode := .run, schedPc := .rxService, rxPhase := .leftTop }
  | .rxLb => { s1 with mode := .run, schedPc := .rxService, rxPhase := .leftBot }
  | .rxRt => { s1 with mode := .run, schedPc := .rxService, rxPhase := .rightTop }
  | .rxRb => { s1 with mode := .run, schedPc := .rxService, rxPhase := .rightBot }
  | .txLt => { s1 with mode := .run, schedPc := .txService, txPhase := .leftTop }
  | .txLb => { s1 with mode := .run, schedPc := .txService, txPhase := .leftBot }
  | .txRt => { s1 with mode := .run, schedPc := .txService, txPhase := .rightTop }
  | .txRb => { s1 with mode := .run, schedPc := .txService, txPhase := .rightBot }
  | .rxPoll => { s1 with mode := .run, schedPc := .rxPoll }
  | .txPoll => { s1 with mode := .run, schedPc := .txPoll }
  | .schedStep => { s1 with mode := .run, schedPc := .rxPoll, harness := encode .schedStep }
  | .halt none => { s1 with harness := encode (.halt none) }
  | .halt (some (.busFault r)) => { s1 with mode := .boot, harness := encode (.halt (some (.busFault r))) }
  | .halt (some .overrun) => { s1 with mode := .run, harness := encode (.halt (some .overrun)) }
  | .halt (some .underrun) => { s1 with mode := .run, harness := encode (.halt (some .underrun)) }

/-- The state whose next step meets a table word: the operation it decodes to, or a byte no decoding accepts. -/
def placeTableWord (nbits w : Nat) (s : State) : State :=
  match decodeTableWord nbits w with
  | some i => selectOperation i s
  | none => { unhalt s with harness := [0xFF#8] }

end Sys2Proof.Machine
end

