-- ==== Sys2Proof/Machine/Step.lean ====
section
/-!
DEFINITION. One step of the machine (spec/45_scheduler.md R231): one operation, or the reset event.
-/

namespace Sys2Proof.Machine

/-- One step. A configuration that is not well formed has no run (R261). The reset source comes first (R290). In mode
`Halted` no operation runs: the block is stuck (R262). Otherwise the selected or presented operation runs (R105), where
the block performs it (R52, R53, R137, log 11). -/
def step (s : State) : Host.Outcome State Fault Refusal :=
  if s.config.wf then
    if resetNow s then .next (takeReset s)
    else
      match operationBytes s with
      | none => .fault .halted
      | some bs =>
        match decode bs with
        | .error e => .refused (.undecodable e)
        | .ok (i, rest) =>
          if placed i s then exec i { resetPassed s with harness := rest }
          else .refused (.outOfPlace i.key)
  else .refused .configNotWellFormed

/-- The state whose next step runs the operation of a table word (log 9). -/
def State.withFetchWord (s : State) (nbits w : Nat) : State := placeTableWord nbits w s

end Sys2Proof.Machine
end

