-- ==== Sys2Proof/Machine/Stream.lean ====
section
/-!
DEFINITION. The reference model of the duplex stream (spec/60_exceptions.md R277): an oracle for the block's answers,
"never a restriction of the block's rules". The machine's own step does not use it (log 21).
-/

namespace Sys2Proof.Machine

/-- The stream's receive side (R277). -/
structure RxSide where
  rxne : Bool
  rdr : Word
  ovr : Bool
deriving DecidableEq, Repr

/-- The stream's transmit side (R277). -/
structure TxSide where
  txe : Bool
  tdr : Word
  udr : Bool
deriving DecidableEq, Repr

/-- The stream, with the words it has sent and the count of free words drawn for slots it could not fill. -/
structure Stream where
  rx : RxSide
  tx : TxSide
  sent : List Word
  slotDraws : Nat
deriving DecidableEq, Repr

/-- The stream at its own reset: `{0, any, 0}` and `{1, any, 0}` (R277); the holding words are arguments. A reset of the
block does not bring it back here (log 24). -/
def streamReset (c : Config) (rdr tdr : Nat) : Stream :=
  ⟨⟨false, portWord c rdr, false⟩, ⟨true, portWord c tdr, false⟩, [], 0⟩

/-- What the stream does of its own accord (R277). -/
inductive StreamEvent where
  | rxArrive (word : Nat)
  | txSlot
deriving DecidableEq, Repr

/-- `RxArrive(w)` (R277): a word that meets a full register is lost and sets the overrun flag. -/
def rxArrive (c : Config) (w : Nat) (st : Stream) : Stream :=
  if st.rx.rxne then { st with rx := { st.rx with ovr := true } }
  else { st with rx := { st.rx with rdr := portWord c w, rxne := true } }

/-- `TxSlot()` (R277): a slot with nothing ready sets the underrun flag and sends a free word (93 M4). -/
def txSlot (c : Config) (st : Stream) : Stream :=
  if st.tx.txe then
    { st with
      tx := { st.tx with udr := true }
      sent := st.sent ++ [portWord c (Config.freeSlotWord st.slotDraws)]
      slotDraws := st.slotDraws + 1 }
  else { st with tx := { st.tx with txe := true }, sent := st.sent ++ [st.tx.tdr] }

/-- One event of the stream. -/
def streamEvent (c : Config) (e : StreamEvent) (st : Stream) : Stream :=
  match e with
  | .rxArrive w => rxArrive c w st
  | .txSlot => txSlot c st

/-- What an access of the block does to the stream (R277): only the two data accesses do anything. -/
def streamAccess (st : Stream) (e : Event) : Stream :=
  match e with
  | .rxDataRead _ => { st with rx := { st.rx with rxne := false } }
  | .txDataWrite w => { st with tx := { st.tx with tdr := w, txe := false } }
  | _ => st

/-- The block with the stream's present answers ready on its ports (R277). One step makes at most one access to each
port, so one answer a port is enough. -/
def offerAnswers (st : Stream) (s : State) : State :=
  { s with env := { s.env with
      rxStatus := [⟨st.rx.rxne, st.rx.ovr⟩]
      rxWords := [st.rx.rdr]
      txStatus := [⟨st.tx.txe, st.tx.udr⟩] } }

/-- The block together with the reference stream. -/
structure Closed where
  block : State
  stream : Stream
deriving DecidableEq, Repr

/-- One step of the block against the reference stream: its answers are the stream's, and its accesses act on it.
DESIGN CHOICE (log 24): where the step is the block's reset, the stream keeps its flags and words as they stood, a sticky
overrun flag included. R292 and 93 M7 leave them open there; `streamReset` is how R277 starts the stream. -/
def closedStep (c : Closed) : Host.Outcome Closed Fault Refusal :=
  match step (offerAnswers c.stream c.block) with
  | .next t => .next ⟨t, (t.trace.drop c.block.trace.length).foldl streamAccess c.stream⟩
  | .fault e => .fault e
  | .refused e => .refused e

/-- One event of the stream, between two steps of the block (R231). -/
def closedEvent (e : StreamEvent) (c : Closed) : Closed := { c with stream := streamEvent c.block.config e c.stream }

end Sys2Proof.Machine
end

