-- ==== Sys2Proof/Safety.lean ====
section
/-!
DEFINITION. The terms claims are stated in: what the interface has seen (spec/10_state.md R58), the invariants of the
block, and the delay law's quantities (spec/44_echo_buffer.md).
-/

namespace Sys2Proof.Machine

/-! ## What the interface has seen -/

/-- The words received, in order. -/
def rxWordsOf : List Event → List Word
  | [] => []
  | .rxDataRead w :: rest => w :: rxWordsOf rest
  | _ :: rest => rxWordsOf rest

/-- The words sent, in order. -/
def txWordsOf : List Event → List Word
  | [] => []
  | .txDataWrite w :: rest => w :: txWordsOf rest
  | _ :: rest => txWordsOf rest

/-- An access to the control bus (R50). -/
def Event.isControl : Event → Bool
  | .csSet _ => true
  | .busXfer _ => true
  | .csHold => true
  | .rxStatusRead _ => false
  | .rxDataRead _ => false
  | .txStatusRead _ => false
  | .txDataWrite _ => false

/-- An access to the stream (R50). -/
def Event.isStream (e : Event) : Bool := !e.isControl

/-- The five events of one completed `CTRL_WRITE` (R136). -/
def frameEvents (r : ControlRegister) : List Event :=
  [.csSet false, .busXfer (frameByte0 r.address r.value), .busXfer (frameByte1 r.value), .csSet true, .csHold]

/-- The verdict on byte1 of a frame, if byte0 passed (R130). The verdict on byte0 is `busAnswer`. -/
def secondVerdict (r : ControlRegister) (s : State) : Verdict :=
  busAnswer (busXfer (frameByte0 r.address r.value) (csSet false s))

/-- A receive status that licenses one word: ready, with no overrun (R232). -/
def Event.licensesRx : Event → Bool
  | .rxStatusRead st => st.ready && !st.ovr
  | _ => false

/-- A transmit status that licenses one word: ready, with no underrun (R234). -/
def Event.licensesTx : Event → Bool
  | .txStatusRead st => st.ready && !st.udr
  | _ => false

/-! ## Orders and progress -/

/-- The order `Reset < Configured < Active` (R34). -/
def CodecState.rank : CodecState → Nat
  | .reset => 0
  | .configured => 1
  | .active => 2

/-- The codec state that goes with a place in the bring-up list (R153, R154). -/
def codecStateAt (c : Config) (bootIdx : Nat) : CodecState :=
  if bootIdx = c.nBringup then .active
  else if 1 ≤ c.actIdx ∧ c.actIdx ≤ bootIdx then .configured
  else .reset

/-- No harness has presented an operation, so the next step runs what `next_op` selects (R105). -/
def State.selfDriven (s : State) : Prop := s.harness = []

/-- The reset source does not act at this step and the configuration is one that runs: a step runs an operation unless
the block is halted. -/
def State.running (s : State) : Prop := s.config.wf = true ∧ resetNow s = false

/-- The reset source acts at no coming step: the premise of a claim about what happens without a reset (R278). -/
def State.quiet (s : State) : Prop := ∀ b ∈ s.env.resets, b = false

/-! ## The block's invariant -/

/-- What every step keeps: the configuration runs, the cursors lie in their arrays and follow the frame counts (R211),
the memory is canonical and holds nothing outside the arrays, every word stored or moved fits `WORD_BITS` (R80),
`halt_cause` is recorded exactly in `Halted` (R33), and the bring-up record agrees with the place in the list and with
the mode (R32, R34, R37). -/
structure State.Inv (s : State) : Prop where
  config_wf : s.config.wf = true
  list_nonempty : 0 < s.config.nBringup
  wc_law : s.wc = s.nrx % s.config.bufLen
  rc_law : s.rc = (s.config.bufLen - s.config.delay + s.ntx) % s.config.bufLen
  mem_wf : s.mem.wf = true
  top_inside : ∀ i, s.config.bufLen ≤ i → s.mem.read .top i = 0
  bot_inside : ∀ i, s.config.bufLen ≤ i → s.mem.read .bot i = 0
  cells_fit : ∀ n i, s.mem.read n i < 2 ^ s.config.wordBits
  moved_fit : ∀ w ∈ rxWordsOf s.trace ++ txWordsOf s.trace, w < 2 ^ s.config.wordBits
  halt_recorded : s.haltCause = none ↔ s.mode ≠ .halted
  boot_in_list : s.mode = .boot → s.bootIdx < s.config.nBringup
  boot_le : s.bootIdx ≤ s.config.nBringup
  run_after_bringup : s.mode = .run → s.bootIdx = s.config.nBringup
  codec_law : s.codecState = codecStateAt s.config s.bootIdx
  cs_high : s.mode ≠ .halted → s.csN = true

/-! ## The delay law -/

/-- The largest frame `k < n` stored at index `i`, that is with `k ≡ i (mod bufLen)` (R213, R214). -/
def latestFrame (bufLen i : Nat) : Nat → Option Nat
  | 0 => none
  | k + 1 => if k % bufLen = i then some k else latestFrame bufLen i k

/-- The sub-word at slot `off` of RX frame `k` (0 the top word, 1 the bot word). -/
def frameWord (ws : List Word) (off k : Nat) : Word := ws.getD (4 * k + off) 0

/-- `a`, the number of `RX_LT` operations after `n` received words (spec/44_echo_buffer.md, notation). -/
def topFrames (n : Nat) : Nat := (n + 3) / 4

/-- `b`, the number of `RX_LB` operations after `n` received words (R175). -/
def botFrames (n : Nat) : Nat := (n + 2) / 4

/-- The word cell `i` of an array holds after the words `ws` were received: that of the latest of the first `n` frames
stored there, or the reset value (R213, R214). -/
def storedWord (bufLen : Nat) (ws : List Word) (off n i : Nat) : Word :=
  match latestFrame bufLen i n with
  | none => 0
  | some k => frameWord ws off k

/-- `in[j − DELAY]`'s sub-word, with `in[k] = (0, 0)` for `k < 0` (R214, R215). -/
def delayedWord (delay : Nat) (ws : List Word) (off j : Nat) : Word :=
  if j < delay then 0 else frameWord ws off (j - delay)

/-- The window of R214 for a TX frame `j` when `n` RX frames are stored: `1 − DELAY ≤ n − j ≤ BUF_LEN − DELAY`. -/
def inWindow (c : Config) (n j : Nat) : Prop := j < n + c.delay ∧ n + c.delay ≤ j + c.bufLen

/-- What the count of words moved since reset fixes (R175, R195, R213): phases, frame counts, and the contents of both
arrays, whatever a harness presents. -/
structure State.StreamLaw (s : State) : Prop where
  rx_phase : s.rxPhase.code.toNat = (rxWordsOf s.trace).length % 4
  tx_phase : s.txPhase.code.toNat = (txWordsOf s.trace).length % 4
  rx_frames : s.nrx = botFrames (rxWordsOf s.trace).length
  tx_frames : s.ntx = botFrames (txWordsOf s.trace).length
  top_cells : ∀ i, i < s.config.bufLen → s.mem.read .top i =
    storedWord s.config.bufLen (rxWordsOf s.trace) 0 (topFrames (rxWordsOf s.trace).length) i
  bot_cells : ∀ i, i < s.config.bufLen → s.mem.read .bot i =
    storedWord s.config.bufLen (rxWordsOf s.trace) 1 (botFrames (rxWordsOf s.trace).length) i

/-- Every TX frame begun so far is the input delayed by `DELAY` frames in the left channel, from frames already
received, and silence in the right one (R196, R215). -/
structure State.Delayed (s : State) : Prop where
  top_out : ∀ j, 4 * j < (txWordsOf s.trace).length →
    (txWordsOf s.trace).getD (4 * j) 0 = delayedWord s.config.delay (rxWordsOf s.trace) 0 j
  top_received : ∀ j, 4 * j < (txWordsOf s.trace).length → s.config.delay ≤ j →
    4 * (j - s.config.delay) < (rxWordsOf s.trace).length
  bot_out : ∀ j, 4 * j + 1 < (txWordsOf s.trace).length →
    (txWordsOf s.trace).getD (4 * j + 1) 0 = delayedWord s.config.delay (rxWordsOf s.trace) 1 j
  bot_received : ∀ j, 4 * j + 1 < (txWordsOf s.trace).length → s.config.delay ≤ j →
    4 * (j - s.config.delay) + 1 < (rxWordsOf s.trace).length
  silence : ∀ j, (txWordsOf s.trace).getD (4 * j + 2) 0 = 0 ∧
    (txWordsOf s.trace).getD (4 * j + 3) 0 = 0

/-- The matched-rate premise of R215 at this state: if the next operation is `TX_LT` or `TX_LB`, its drift lies in the
window. -/
def State.driftInWindow (s : State) : Prop :=
  (s.schedPc = .txService → s.txPhase = .leftTop →
    inWindow s.config (topFrames (rxWordsOf s.trace).length) s.ntx) ∧
  (s.schedPc = .txService → s.txPhase = .leftBot →
    inWindow s.config (botFrames (rxWordsOf s.trace).length) s.ntx)

/-- One word per ready pulse (R237): every licensing status read is answered by exactly one data access, and at most the
last one is still owed, in the service position its poll selected. -/
structure State.PulseLaw (s : State) : Prop where
  rx_owed : s.trace.countP Event.licensesRx =
    (rxWordsOf s.trace).length + (if s.schedPc = .rxService then 1 else 0)
  tx_owed : s.trace.countP Event.licensesTx =
    (txWordsOf s.trace).length + (if s.schedPc = .txService then 1 else 0)
  boot_idle : s.mode = .boot → s.schedPc = .rxPoll

end Sys2Proof.Machine
end

