-- ==== Sys2Proof/Certificates/Slice0/Obligations.lean ====
section
/-!
DEFINITION. The statements for the provers, each with the rule of spec/ it formalises.
-/

open Sys2Proof Sys2Proof.Machine

/-! ## Encoding -/

/-- Decoding an encoded well-formed operation gives it back, with the bytes after it. The frame and the key are the
spec's (R101, R104); `HALT`'s operand bytes are the model's choice (log 9). -/
def Obligations.DecodeInvertsEncode : Prop :=
  ∀ (i : Instr) (rest : List Byte), i.wf = true → decode (encode i ++ rest) = .ok (i, rest)

/-- What decodes is the encoding of a well-formed operation: no bytes but an operation's own are read as it. The frame
and the keys are the spec's (R101, R104); that an operation's bytes are a key byte with its operand bytes after it, and
`HALT`'s operand bytes, are the model's choice (log 9). -/
def Obligations.DecodedBytesAreItsEncoding : Prop :=
  ∀ (bs rest : List Byte) (i : Instr), decode bs = .ok (i, rest) → i.wf = true ∧ bs = encode i ++ rest

/-- R131, R132 and R102: the fields of the two bytes, and `{byte0, byte1} = (address << 9) | value`, with the address at
bits 15:9, `value[8]` at bit 8 and byte1 at bits 7:0. -/
def Obligations.FrameIsAddressThenValue : Prop :=
  ∀ (a : RegAddress) (v : RegValue),
    (frameByte0 a v).extractLsb' 1 7 = a ∧ (frameByte0 a v).extractLsb' 0 1 = v.extractLsb' 8 1 ∧
    frameByte1 v = v.extractLsb' 0 8 ∧
    frameByte0 a v ++ frameByte1 v = (a.setWidth 16 <<< 9) ||| v.setWidth 16 ∧
    (frameByte0 a v ++ frameByte1 v).extractLsb' 9 7 = a ∧
    (frameByte0 a v ++ frameByte1 v).extractLsb' 8 1 = v.extractLsb' 8 1 ∧
    (frameByte0 a v ++ frameByte1 v).extractLsb' 0 8 = frameByte1 v

/-- R103: every 16-bit pattern is the frame of exactly one pair, the one its fields give. -/
def Obligations.EveryFrameIsOneWrite : Prop :=
  (∀ (a : RegAddress) (v : RegValue), frameAddress (frameOf a v) = a ∧ frameValue (frameOf a v) = v) ∧
  ∀ f : BitVec 16, frameOf (frameAddress f) (frameValue f) = f ∧
    frameAddress f = f.extractLsb' 9 7 ∧ frameValue f = f.extractLsb' 0 9 ∧
    ∀ (a : RegAddress) (v : RegValue), frameOf a v = f → a = frameAddress f ∧ v = frameValue f

/-- Words written out from the spec's encodings (V-F4, V-F5, V-F8 of spec/95_test_vectors.md and R104) decode to their
operations. -/
def Obligations.SampleWordsDecode : Prop :=
  decodeTableWord 16 0x0F4A = some (.ctrlWrite 0x07 0x14A) ∧
  decodeTableWord 16 0xFFFF = some (.ctrlWrite 0x7F 0x1FF) ∧
  decodeTableWord 16 0x8080 = some (.ctrlWrite 0x40 0x080) ∧
  decodeTableWord 8 0b0010 = some .bringupStep ∧
  decodeTableWord 8 0b0101 = some .rxLb ∧
  decodeTableWord 8 0b1010 = some .txRt ∧
  decodeTableWord 8 0b1101 = some .txPoll ∧
  decodeTableWord 8 0b1110 = some .schedStep

/-- R106: the codes of ChannelPhase, and the successor as `(p + 1) mod 4` on the code. -/
def Obligations.PhaseCodesCycle : Prop :=
  ChannelPhase.leftTop.code = 0b00#2 ∧ ChannelPhase.leftBot.code = 0b01#2 ∧
  ChannelPhase.rightTop.code = 0b10#2 ∧ ChannelPhase.rightBot.code = 0b11#2 ∧
  (∀ p : ChannelPhase, p.next.code.toNat = (p.code.toNat + 1) % 4) ∧
  ChannelPhase.leftTop.next = .leftBot ∧ ChannelPhase.leftBot.next = .rightTop ∧
  ChannelPhase.rightTop.next = .rightBot ∧ ChannelPhase.rightBot.next = .leftTop

/-! ## Selection and the step -/

/-- R105: `next_op`, and the keys it never gives: `CTRL_WRITE`, `HALT`, `SCHED_STEP`. -/
def Obligations.NextOpFollowsControlState : Prop :=
  ∀ s : State,
    nextKey s =
      (if s.mode = .halted then none
       else if s.mode = .boot then some 0b0010#4
       else if s.schedPc = .rxPoll then some 0b1100#4
       else if s.schedPc = .rxService then some (0b01#2 ++ s.rxPhase.code)
       else if s.schedPc = .txPoll then some 0b1101#4
       else some (0b10#2 ++ s.txPhase.code)) ∧
    nextKey s ≠ some 0b0000#4 ∧ nextKey s ≠ some 0b1111#4 ∧ nextKey s ≠ some 0b1110#4

/-- A step runs the decoded operation: if the bytes the next step meets decode to `i`, the step is `exec` of `i`, with
the bytes of `i` taken from what a harness had presented and one entry of the reset source's list passed. Two choices of
the model stand in it: a presented operation is taken before the one `next_op` selects (log 9), and one presented where
the block does not perform it is refused by name (log 11, read from R52, R53, R137 and R266). -/
def Obligations.StepRunsDecodedOperation : Prop :=
  ∀ (s : State) (bs rest : List Byte) (i : Instr), s.running → operationBytes s = some bs →
    decode bs = .ok (i, rest) →
    (placed i s = true → step s = exec i { resetPassed s with harness := rest }) ∧
    (placed i s = false → step s = .refused (.outOfPlace i.key)) ∧
    (nextKey s = some i.key → placed i s = true)

/-- With nothing presented, a step is the operation whose key `next_op` gives (R105, R231), once the reset source has
let it pass. -/
def Obligations.SelfDrivenStepRunsNextOp : Prop :=
  ∀ (s : State) (i : Instr), s.running → s.selfDriven → nextKey s = some i.key → step s = exec i (resetPassed s)

/-- In mode `Halted` no operation runs, whatever a harness presents (R262, R269). That the step answers a fault is the
model's choice (log 14). -/
def Obligations.HaltedBlockTakesNoStep : Prop :=
  ∀ s : State, s.running → s.mode = .halted → step s = .fault .halted ∧ nextKey s = none

/-- A configuration that is not well formed has no run (R10, R261). -/
def Obligations.IllFormedConfigurationNeverRuns : Prop :=
  ∀ s : State, ¬ (2 ≤ s.config.bufLen ∧ 1 ≤ s.config.delay ∧ s.config.delay ≤ s.config.bufLen - 1 ∧
    s.config.clockOk = true) → step s = .refused .configNotWellFormed

/-- R10, R109, R261: the checks of configuration time accept exactly the configurations with equal arrays, `BUF_LEN ≥ 2`,
`1 ≤ DELAY ≤ BUF_LEN − 1`, a passed clock check and every bring-up operand in its field, and change nothing. -/
def Obligations.ChecksAcceptExactlyWellFormed : Prop :=
  ∀ (r : RawConfig) (c : Config), r.accept = .ok c ↔
    r.topLen = r.botLen ∧ 2 ≤ r.topLen ∧ 1 ≤ r.delay ∧ r.delay ≤ r.topLen - 1 ∧ r.clockOk = true ∧
    (∀ p ∈ r.bringupSeq, p.1 < 128 ∧ p.2 < 512) ∧
    c.wordBits = r.wordBits ∧ c.bufLen = r.topLen ∧ c.delay = r.delay ∧ c.fs = r.fs ∧ c.actIdx = r.actIdx ∧
    c.clockOk = true ∧
    c.bringupSeq.map (fun w => (w.address.toNat, w.value.toNat)) = r.bringupSeq

/-- R48: the parameters are fixed for the life of a model instance; nothing at run time changes them. -/
def Obligations.ParametersNeverChange : Prop :=
  ∀ s t : State, step s = .next t → t.config = s.config

/-! ## Reset -/

/-- The reset event, in any mode and whatever else stands in the state, sets every piece of the block's state to its
reset value (R57, R290). That it acts between two operations, so that an operation it would cut short is not begun, is
the model's reading of R290 (log 15, DEDUCED). It may act at every coming step (R278): the rest of the reset source's
list stands. -/
def Obligations.ResetEventRestoresEveryRegister : Prop :=
  ∀ s : State, s.config.wf = true → resetNow s = true → ∃ t, step s = .next t ∧
    t.mode = .boot ∧ t.haltCause = none ∧ t.codecState = .reset ∧ t.bootIdx = 0 ∧ t.schedPc = .rxPoll ∧
    t.rxPhase = .leftTop ∧ t.txPhase = .leftTop ∧ t.wc = 0 ∧ t.rc = s.config.bufLen - s.config.delay ∧
    (∀ n i, t.mem.read n i = 0) ∧ t.csN = true ∧ t.nrx = 0 ∧ t.ntx = 0 ∧ t.config = s.config ∧
    t.env.resets = s.env.resets.tail

/-- R57: the reset value of every piece of the block's state, for every configuration. -/
def Obligations.ResetStateValues : Prop :=
  State.reset = State.resetOf Config.canonical ∧
  ∀ c : Config, (State.resetOf c).mode = .boot ∧ (State.resetOf c).haltCause = none ∧
    (State.resetOf c).codecState = .reset ∧ (State.resetOf c).bootIdx = 0 ∧
    (State.resetOf c).schedPc = .rxPoll ∧ (State.resetOf c).rxPhase = .leftTop ∧
    (State.resetOf c).txPhase = .leftTop ∧ (State.resetOf c).wc = 0 ∧
    (State.resetOf c).rc = c.bufLen - c.delay ∧
    (∀ n i, (State.resetOf c).mem.read n i = 0) ∧ (State.resetOf c).csN = true ∧
    (State.resetOf c).nrx = 0 ∧ (State.resetOf c).ntx = 0

/-- R291: after a reset the first operation is `BRINGUP_STEP` at `boot_idx = 0`, whose write is `BRINGUP_SEQ[0]`; it runs
unless the reset source acts again. -/
def Obligations.FirstOperationAfterReset : Prop :=
  ∀ s t : State, resetNow s = true → step s = .next t →
    nextKey t = some 0b0010#4 ∧ t.bootIdx = 0 ∧ bringupOperand t = t.config.bringupSeq[0]? ∧
    (resetNow t = false → step t = exec .bringupStep (resetPassed t))

/-! ## Reserved keys -/

/-- R108: keys `0b0001` and `0b0011` are never selected, and a model handed one refuses it. -/
def Obligations.ReservedKeysAreRefused : Prop :=
  ∀ s : State, exec .reserved0001 s = .refused (.reservedKey 0b0001#4) ∧
    exec .reserved0011 s = .refused (.reservedKey 0b0011#4) ∧
    nextKey s ≠ some 0b0001#4 ∧ nextKey s ≠ some 0b0011#4

/-! ## Control channel -/

/-- `CTRL_WRITE` in `Boot` with both bytes passed (R130, R137): the five events, `cs_n` high, two verdicts consumed, and
nothing else of the block changed. -/
def Obligations.CtrlWriteSendsFrame : Prop :=
  ∀ (a v : Nat) (s : State), a < 128 → v < 512 → s.mode = .boot → busAnswer s = .ok →
    secondVerdict ⟨BitVec.ofNat 7 a, BitVec.ofNat 9 v⟩ s = .ok →
    ∃ t, exec (.ctrlWrite a v) s = .next t ∧
      t = { s with
        csN := true
        trace := s.trace ++ frameEvents ⟨BitVec.ofNat 7 a, BitVec.ofNat 9 v⟩
        env := { s.env with busVerdicts := s.env.busVerdicts.tail.tail }
        draws := t.draws }

/-- `CTRL_WRITE` in `Boot` at the first failing byte (R134, R135): `Halted` with the write and the byte recorded, no
further access, and nothing else of the block changed but `cs_n`, whose level is free. -/
def Obligations.CtrlWriteHaltsAtFirstFailure : Prop :=
  ∀ (a v : Nat) (s : State), a < 128 → v < 512 → s.mode = .boot →
    (busAnswer s = .err →
      ∃ t, exec (.ctrlWrite a v) s = .next t ∧
        t = { s with
          mode := .halted
          haltCause := some (.busFault ⟨BitVec.ofNat 7 a, BitVec.ofNat 9 v, 0⟩)
          csN := t.csN
          trace := s.trace ++ [.csSet false, .busXfer (frameByte0 (BitVec.ofNat 7 a) (BitVec.ofNat 9 v))]
          env := { s.env with busVerdicts := s.env.busVerdicts.tail }
          draws := t.draws }) ∧
    (busAnswer s = .ok → secondVerdict ⟨BitVec.ofNat 7 a, BitVec.ofNat 9 v⟩ s = .err →
      ∃ t, exec (.ctrlWrite a v) s = .next t ∧
        t = { s with
          mode := .halted
          haltCause := some (.busFault ⟨BitVec.ofNat 7 a, BitVec.ofNat 9 v, 1⟩)
          csN := t.csN
          trace := s.trace ++ [.csSet false, .busXfer (frameByte0 (BitVec.ofNat 7 a) (BitVec.ofNat 9 v)),
            .busXfer (frameByte1 (BitVec.ofNat 9 v))]
          env := { s.env with busVerdicts := s.env.busVerdicts.tail.tail }
          draws := t.draws })

/-- R136: the control-bus trace of a successful write is exactly the five events; of a failing one, the prefix that ends
at the byte whose verdict was `Err`. -/
def Obligations.CtrlWriteTraceIsFrameOrPrefix : Prop :=
  ∀ (a v : Nat) (s t : State), exec (.ctrlWrite a v) s = .next t →
    (busAnswer s = .ok → secondVerdict ⟨BitVec.ofNat 7 a, BitVec.ofNat 9 v⟩ s = .ok →
      t.trace = s.trace ++ frameEvents ⟨BitVec.ofNat 7 a, BitVec.ofNat 9 v⟩) ∧
    (busAnswer s = .err →
      t.trace = s.trace ++ (frameEvents ⟨BitVec.ofNat 7 a, BitVec.ofNat 9 v⟩).take 2) ∧
    (busAnswer s = .ok → secondVerdict ⟨BitVec.ofNat 7 a, BitVec.ofNat 9 v⟩ s = .err →
      t.trace = s.trace ++ (frameEvents ⟨BitVec.ofNat 7 a, BitVec.ofNat 9 v⟩).take 3)

/-- R109: an operand outside its width is refused, before any access, and is not truncated. R137: a write is performed
only in `Boot`; that one presented elsewhere is a refusal is the model's reading (log 11). -/
def Obligations.CtrlWriteRefusals : Prop :=
  (∀ (a v : Nat) (s : State), 128 ≤ a ∨ 512 ≤ v → exec (.ctrlWrite a v) s = .refused (.operandTooWide a v)) ∧
  ∀ (a v : Nat) (s : State), a < 128 → v < 512 → s.mode ≠ .boot → exec (.ctrlWrite a v) s = .refused .notInBoot

/-! ## Bring-up -/

/-- R152 and R153: selected in `Boot`; a completed write sends `BRINGUP_SEQ[boot_idx]` and advances `boot_idx`, enters
`Configured` at `ACT_IDX` and `Active` with `Run` at `N_BRINGUP`; on a bus fault `boot_idx` and `codec_state` keep their
values and the mode becomes `Halted`. -/
def Obligations.BringupStepIssuesNextWrite : Prop :=
  (Instr.bringupStep.key = 0b0010#4 ∧ ∀ s : State, s.mode = .boot → nextKey s = some 0b0010#4) ∧
  ∀ (s : State) (r : ControlRegister), s.config.bringupSeq[s.bootIdx]? = some r →
    (busAnswer s = .ok → secondVerdict r s = .ok → ∃ t, exec .bringupStep s = .next t ∧
      t = { s with
        bootIdx := s.bootIdx + 1
        codecState :=
          if s.bootIdx + 1 = s.config.nBringup then .active
          else if s.bootIdx + 1 = s.config.actIdx then .configured else s.codecState
        mode := if s.bootIdx + 1 = s.config.nBringup then .run else s.mode
        schedPc := if s.bootIdx + 1 = s.config.nBringup then .rxPoll else s.schedPc
        csN := true
        trace := s.trace ++ frameEvents r
        env := { s.env with busVerdicts := s.env.busVerdicts.tail.tail }
        draws := t.draws }) ∧
    (busAnswer s = .err → ∃ t, exec .bringupStep s = .next t ∧
      t = { s with
        mode := .halted
        haltCause := some (.busFault ⟨r.address, r.value, 0⟩)
        csN := t.csN
        trace := s.trace ++ (frameEvents r).take 2
        env := { s.env with busVerdicts := s.env.busVerdicts.tail }
        draws := t.draws }) ∧
    (busAnswer s = .ok → secondVerdict r s = .err → ∃ t, exec .bringupStep s = .next t ∧
      t = { s with
        mode := .halted
        haltCause := some (.busFault ⟨r.address, r.value, 1⟩)
        csN := t.csN
        trace := s.trace ++ (frameEvents r).take 3
        env := { s.env with busVerdicts := s.env.busVerdicts.tail.tail }
        draws := t.draws })

/-- Past the list's end there is no write to issue, and the model faults (R152: "s.boot_idx < N_BRINGUP here"; the
fault is the model's choice, log 13). -/
def Obligations.BringupPastListFaults : Prop :=
  ∀ s : State, s.config.nBringup ≤ s.bootIdx → exec .bringupStep s = .fault (.bringupIndex s.bootIdx)

/-- R156, Scenario C: when every verdict is `Ok`, the trace from reset to `Run` is the five events of each write of the
list in order, and nothing else; `Run` is entered with the last write and not before. -/
def Obligations.BringupReplaysTheWholeList : Prop :=
  ∀ (c : Config) (e : Env) (d : Nat) (more : List Verdict), c.wf = true → 0 < c.nBringup →
    (∀ b ∈ e.resets, b = false) →
    e.busVerdicts = List.replicate (2 * c.nBringup) .ok ++ more →
    ∀ k, k ≤ c.nBringup → ∃ t : State,
      Host.Core.run Sys2Proof.core k { State.resetOf c with env := e, draws := d } = .next t ∧
      t.trace = (c.bringupSeq.take k).flatMap frameEvents ∧ t.bootIdx = k ∧ t.haltCause = none ∧
      (t.mode = if k = c.nBringup then .run else .boot) ∧ t.schedPc = .rxPoll ∧
      (k = c.nBringup → t.codecState = .active)

/-- R157: after a bus fault in bring-up no operation ever runs again without a reset, and `codec_state` stays below
`Active`. That every later run answers the fault `halted` is the model's choice (log 14); the spec says that there is no
further step. -/
def Obligations.BringupFailureIsFatal : Prop :=
  ∀ s t : State, s.config.wf = true → s.quiet → s.selfDriven → s.mode = .boot → s.codecState ≠ .active →
    step s = .next t → t.mode = .halted →
    t.codecState ≠ .active ∧ (∃ r, t.haltCause = some (.busFault r)) ∧
    ∀ n, Host.Core.run Sys2Proof.core (n + 1) t = .fault .halted

/-! ## RX dispatcher -/

/-- What reading a word from the stream does to the state (R52): one event, the word consumed, and nothing else of the
block. The word is one of `WORD_BITS` bits (R80), and an answer that fits them is the word as it stands (R170). -/
def Obligations.RxDataReadConsumesOneWord : Prop :=
  ∀ s : State, rxDataRead s = { s with
    trace := s.trace ++ [.rxDataRead (rxWordAnswer s)]
    env := { s.env with rxWords := s.env.rxWords.tail }
    draws := (rxDataRead s).draws } ∧
    rxWordAnswer s < 2 ^ s.config.wordBits ∧
    ∀ w rest, s.env.rxWords = w :: rest → (rxDataRead s).draws = s.draws ∧
      (w < 2 ^ s.config.wordBits → rxWordAnswer s = w)

/-- R171: `RX_LT` stores the word into `top[wc]` and changes, beside the read's own effect, only `rx_phase` and
`sched_pc`. -/
def Obligations.RxLtStoresIntoTop : Prop :=
  (Instr.rxLt.key = 0b0100#4 ∧ ∀ s : State, s.mode = .run → s.schedPc = .rxService → s.rxPhase = .leftTop →
    nextKey s = some 0b0100#4) ∧
  ∀ s : State, s.wc < s.config.bufLen → ∃ t, exec .rxLt s = .next t ∧
    (∀ n i, t.mem.read n i = if n = .top ∧ i = s.wc then rxWordAnswer s else s.mem.read n i) ∧
    t = { rxDataRead s with mem := t.mem, rxPhase := .leftBot, schedPc := .txPoll }

/-- R172: `RX_LB` stores the word into `bot` at the old `wc`, advances `wc` modulo `BUF_LEN` and counts the frame. -/
def Obligations.RxLbStoresIntoBotAndAdvances : Prop :=
  (Instr.rxLb.key = 0b0101#4 ∧ ∀ s : State, s.mode = .run → s.schedPc = .rxService → s.rxPhase = .leftBot →
    nextKey s = some 0b0101#4) ∧
  ∀ s : State, s.wc < s.config.bufLen → ∃ t, exec .rxLb s = .next t ∧
    (∀ n i, t.mem.read n i = if n = .bot ∧ i = s.wc then rxWordAnswer s else s.mem.read n i) ∧
    t = { rxDataRead s with
      mem := t.mem, wc := (s.wc + 1) % s.config.bufLen, nrx := s.nrx + 1, rxPhase := .rightTop, schedPc := .txPoll }

/-- R173 and R174: `RX_RT` and `RX_RB` read and discard a word; no buffer cell and no cursor changes. -/
def Obligations.RightChannelWordsAreDiscarded : Prop :=
  (Instr.rxRt.key = 0b0110#4 ∧ ∀ s : State, s.mode = .run → s.schedPc = .rxService → s.rxPhase = .rightTop →
    nextKey s = some 0b0110#4) ∧
  (Instr.rxRb.key = 0b0111#4 ∧ ∀ s : State, s.mode = .run → s.schedPc = .rxService → s.rxPhase = .rightBot →
    nextKey s = some 0b0111#4) ∧
  ∀ s : State,
    (∃ t, exec .rxRt s = .next t ∧ (∀ n i, t.mem.read n i = s.mem.read n i) ∧
      t = { rxDataRead s with rxPhase := .rightBot, schedPc := .txPoll }) ∧
    (∃ t, exec .rxRb s = .next t ∧ (∀ n i, t.mem.read n i = s.mem.read n i) ∧
      t = { rxDataRead s with rxPhase := .leftTop, schedPc := .txPoll })

/-- The value of a right-channel word has no effect on any state but the record of the access (R173). -/
def Obligations.RightChannelWordHasNoEffect : Prop :=
  ∀ (s t t' : State) (w w' : Nat) (rest : List Nat) (i : Instr), i = .rxRt ∨ i = .rxRb →
    exec i { s with env := { s.env with rxWords := w :: rest } } = .next t →
    exec i { s with env := { s.env with rxWords := w' :: rest } } = .next t' →
    t' = { t with trace := t'.trace } ∧ t'.trace.length = t.trace.length

/-- R79: a buffer access outside the arrays faults; it is not wrapped or clamped. -/
def Obligations.CursorOutsideArraysFaults : Prop :=
  ∀ s : State,
    (s.config.bufLen ≤ s.wc → exec .rxLt s = .fault (.bufferIndex .top s.wc) ∧
      exec .rxLb s = .fault (.bufferIndex .bot s.wc)) ∧
    (s.config.bufLen ≤ s.rc → exec .txLt s = .fault (.bufferIndex .top s.rc) ∧
      exec .txLb s = .fault (.bufferIndex .bot s.rc))

/-! ## TX dispatcher -/

/-- R191: `TX_LT` sends `top[rc]` and changes only `tx_phase` and `sched_pc`; the buffer is not written. -/
def Obligations.TxLtSendsTop : Prop :=
  (Instr.txLt.key = 0b1000#4 ∧ ∀ s : State, s.mode = .run → s.schedPc = .txService → s.txPhase = .leftTop →
    nextKey s = some 0b1000#4) ∧
  ∀ s : State, s.rc < s.config.bufLen → exec .txLt s = .next { s with
    trace := s.trace ++ [.txDataWrite (s.mem.read .top s.rc)], txPhase := .leftBot, schedPc := .rxPoll }

/-- R192: `TX_LB` sends `bot[rc]` at the old `rc`, advances `rc` modulo `BUF_LEN` and counts the frame. -/
def Obligations.TxLbSendsBotAndAdvances : Prop :=
  (Instr.txLb.key = 0b1001#4 ∧ ∀ s : State, s.mode = .run → s.schedPc = .txService → s.txPhase = .leftBot →
    nextKey s = some 0b1001#4) ∧
  ∀ s : State, s.rc < s.config.bufLen → exec .txLb s = .next { s with
    trace := s.trace ++ [.txDataWrite (s.mem.read .bot s.rc)], rc := (s.rc + 1) % s.config.bufLen, ntx := s.ntx + 1,
    txPhase := .rightTop, schedPc := .rxPoll }

/-- R193 and R194, Scenario D: `TX_RT` and `TX_RB` send zero whatever the buffer holds. -/
def Obligations.RightChannelIsSilent : Prop :=
  (Instr.txRt.key = 0b1010#4 ∧ ∀ s : State, s.mode = .run → s.schedPc = .txService → s.txPhase = .rightTop →
    nextKey s = some 0b1010#4) ∧
  (Instr.txRb.key = 0b1011#4 ∧ ∀ s : State, s.mode = .run → s.schedPc = .txService → s.txPhase = .rightBot →
    nextKey s = some 0b1011#4) ∧
  ∀ s : State,
    exec .txRt s = .next { s with
      trace := s.trace ++ [.txDataWrite 0], txPhase := .rightBot, schedPc := .rxPoll } ∧
    exec .txRb s = .next { s with
      trace := s.trace ++ [.txDataWrite 0], txPhase := .leftTop, schedPc := .rxPoll }

/-! ## Scheduler -/

/-- R232: `RX_POLL` reads the status once; overrun halts whatever `ready` is, else `ready` chooses between service and
the transmit side. -/
def Obligations.RxPollDecides : Prop :=
  (Instr.rxPoll.key = 0b1100#4 ∧ ∀ s : State, s.mode = .run → s.schedPc = .rxPoll → nextKey s = some 0b1100#4) ∧
  ∀ s : State,
    rxStatusRead s = { s with
      trace := s.trace ++ [.rxStatusRead (rxStatusAnswer s)]
      env := { s.env with rxStatus := s.env.rxStatus.tail }
      draws := (rxStatusRead s).draws } ∧
    ((rxStatusAnswer s).ovr = false → exec .rxPoll s = .next { rxStatusRead s with
      schedPc := if (rxStatusAnswer s).ready = true then .rxService else .txPoll }) ∧
    ((rxStatusAnswer s).ovr = true → exec .rxPoll s = .next { rxStatusRead s with
      mode := .halted, haltCause := some .overrun })

/-- R234: `TX_POLL` reads the status once; underrun halts whatever `ready` is, else `ready` chooses between service and
the next iteration. -/
def Obligations.TxPollDecides : Prop :=
  (Instr.txPoll.key = 0b1101#4 ∧ ∀ s : State, s.mode = .run → s.schedPc = .txPoll → nextKey s = some 0b1101#4) ∧
  ∀ s : State,
    txStatusRead s = { s with
      trace := s.trace ++ [.txStatusRead (txStatusAnswer s)]
      env := { s.env with txStatus := s.env.txStatus.tail }
      draws := (txStatusRead s).draws } ∧
    ((txStatusAnswer s).udr = false → exec .txPoll s = .next { txStatusRead s with
      schedPc := if (txStatusAnswer s).ready = true then .txService else .rxPoll }) ∧
    ((txStatusAnswer s).udr = true → exec .txPoll s = .next { txStatusRead s with
      mode := .halted, haltCause := some .underrun })

/-- R235 where neither fault flag is set: one iteration completes at `sched_pc = RX_POLL`, having moved one RX word if
receive was ready and one TX word if transmit was ready. The transmit status may be a free value whose counter the RX
half moves, so its hypothesis speaks of every counter. -/
def Obligations.SchedStepCompletes : Prop :=
  ∀ (s : State) (tst : TxStatus), s.mode = .run → s.schedPc = .rxPoll →
    s.wc < s.config.bufLen → s.rc < s.config.bufLen → (rxStatusAnswer s).ovr = false →
    (∀ d, txStatusAnswer { s with draws := d } = tst) → tst.udr = false →
    ∃ t, exec .schedStep s = .next t ∧
      (∀ n i, t.mem.read n i =
        if (rxStatusAnswer s).ready = true ∧ i = s.wc ∧
            (n = .top ∧ s.rxPhase = .leftTop ∨ n = .bot ∧ s.rxPhase = .leftBot)
        then rxWordAnswer (rxStatusRead s) else s.mem.read n i) ∧
      t = { s with
        mem := t.mem, trace := t.trace, env := t.env, draws := t.draws
        rxPhase := if (rxStatusAnswer s).ready = true then s.rxPhase.next else s.rxPhase
        wc := if (rxStatusAnswer s).ready = true ∧ s.rxPhase = .leftBot then (s.wc + 1) % s.config.bufLen else s.wc
        nrx := if (rxStatusAnswer s).ready = true ∧ s.rxPhase = .leftBot then s.nrx + 1 else s.nrx
        txPhase := if tst.ready = true then s.txPhase.next else s.txPhase
        rc := if tst.ready = true ∧ s.txPhase = .leftBot then (s.rc + 1) % s.config.bufLen else s.rc
        ntx := if tst.ready = true ∧ s.txPhase = .leftBot then s.ntx + 1 else s.ntx }

/-- R235: `SCHED_STEP` is the run of selected operations from `sched_pc = RX_POLL` back to it. It takes 2, 3 or 4
accesses when it completes and 1, 2 or 3 when it halts, one access for each operation. The run passes one entry of the
reset source's list a step, the composite none of its own (log 16). -/
def Obligations.SchedStepIsOneIteration : Prop :=
  ∀ s : State, s.config.wf = true → s.quiet → s.selfDriven → s.mode = .run → s.schedPc = .rxPoll →
    s.wc < s.config.bufLen → s.rc < s.config.bufLen →
    ∃ (k : Nat) (t : State), exec .schedStep s = .next t ∧
      Host.Core.run Sys2Proof.core k s = .next { t with env := { t.env with resets := s.env.resets.drop k } } ∧
      t.trace.length = s.trace.length + k ∧
      (t.mode = .run ∧ t.schedPc = .rxPoll ∧ 2 ≤ k ∧ k ≤ 4 ∨ t.mode = .halted ∧ 1 ≤ k ∧ k ≤ 3)

/-- `SCHED_STEP` where its requirement fails is refused by name (R235; the refusal is the model's choice, log 11). -/
def Obligations.SchedStepNeedsLoopStart : Prop :=
  ∀ s : State, ¬ (s.mode = .run ∧ s.schedPc = .rxPoll) → exec .schedStep s = .refused .notAtLoopStart

/-- R266 within one iteration: with the overrun flag set the iteration records `Overrun`, makes no access after the
receive status read, and never reads the transmit status. -/
def Obligations.OverrunIsFoundFirst : Prop :=
  ∀ s : State, s.mode = .run → s.schedPc = .rxPoll → (rxStatusAnswer s).ovr = true →
    exec .schedStep s = .next { rxStatusRead s with mode := .halted, haltCause := some .overrun }

/-- R240, Scenario B: an overrun seen by the poll stops the block for good, with its buffer, cursors and phases as they
were before that poll and no access after it. That every later run answers the fault `halted` is the model's choice
(log 14); the spec says that there is no further step. -/
def Obligations.OverrunStopsTheBlock : Prop :=
  ∀ s : State, s.config.wf = true → s.quiet → s.selfDriven → s.mode = .run → s.schedPc = .rxPoll →
    (rxStatusAnswer s).ovr = true →
    ∃ t, step s = .next t ∧ t.haltCause = some .overrun ∧
      t.trace = s.trace ++ [.rxStatusRead (rxStatusAnswer s)] ∧
      t.mem = s.mem ∧ t.wc = s.wc ∧ t.rc = s.rc ∧ t.rxPhase = s.rxPhase ∧ t.txPhase = s.txPhase ∧
      ∀ n, Host.Core.run Sys2Proof.core (n + 1) t = .fault .halted

/-- R237: one word per ready pulse, kept by every step, whatever a harness presents (log 11). -/
def Obligations.StepKeepsPulseLaw : Prop :=
  ∀ s t : State, s.PulseLaw → step s = .next t → t.PulseLaw ∧ (s.selfDriven → t.selfDriven)

/-! ## The fatal halt -/

/-- R262: `HALT cause` sets `mode` and `halt_cause`, on a `BusFault` gives `cs_n` a free level, changes nothing else,
makes no access, and no operation is selected after it. -/
def Obligations.HaltEntersHalted : Prop :=
  Instr.key (.halt none) = 0b1111#4 ∧
  ∀ (c : FatalCause) (s : State), ∃ t, exec (.halt (some c)) s = .next t ∧ nextKey t = none ∧
    ((∀ r, c ≠ .busFault r) → t.csN = s.csN) ∧
    t = { s with mode := .halted, haltCause := some c, csN := t.csN, draws := t.draws }

/-- `HALT` presented by its key alone enters `Halted` with some cause of those found in the mode: a `BusFault` in `Boot`,
a stream fault in `Run` (R262, R266; that the cause is free among them is the model's choice, log 10). -/
def Obligations.HaltKeyAloneHalts : Prop :=
  ∀ s : State, ∃ (t : State) (c : FatalCause), exec (.halt none) s = .next t ∧
    (s.mode = .boot → ∃ r, c = .busFault r) ∧ (s.mode = .run → c = .overrun ∨ c = .underrun) ∧
    t = { s with mode := .halted, haltCause := some c, csN := t.csN, draws := t.draws }

/-! ## Invariants -/

/-- Every step keeps the block's invariant, whatever a harness presents. -/
def Obligations.StepKeepsInvariant : Prop :=
  ∀ s t : State, s.Inv → step s = .next t → t.Inv

/-- The invariant holds right after reset, for every well-formed configuration with a bring-up list and for the reset
state itself. -/
def Obligations.ResetMeetsInvariant : Prop :=
  State.reset.Inv ∧ ∀ c : Config, c.wf = true → 0 < c.nBringup → (State.resetOf c).Inv

/-- R32: `Halted` is left only by reset, and no operation leads from `Run` back to `Boot`. -/
def Obligations.ModeMovesOnlyForward : Prop :=
  ∀ s t : State, step s = .next t →
    (s.mode = .halted → resetNow s = true ∧ t.mode = .boot) ∧
    (resetNow s = false → s.mode = .run → t.mode = .run ∨ t.mode = .halted) ∧
    (resetNow s = true → t.mode = .boot)

/-- R33: `halt_cause` is written once: a step that is no reset and meets a recorded cause does not exist, and under the
invariant it is `None` exactly when the mode is not `Halted`. -/
def Obligations.HaltCauseIsWrittenOnce : Prop :=
  ∀ s t : State, s.Inv → resetNow s = false → step s = .next t →
    s.haltCause = none ∧ (t.haltCause = none ↔ t.mode ≠ .halted)

/-- R34: `codec_state` never decreases between two resets, is written only by `BRINGUP_STEP`, and is `Reset` after
one. -/
def Obligations.CodecStateIsMonotonic : Prop :=
  (∀ s t : State, s.Inv → resetNow s = false → step s = .next t → s.codecState.rank ≤ t.codecState.rank) ∧
  (∀ (i : Instr) (s t : State), i ≠ .bringupStep → exec i s = .next t → t.codecState = s.codecState) ∧
  ∀ s t : State, resetNow s = true → step s = .next t → t.codecState = .reset

/-- In `Run` the block makes no control-bus access and `cs_n` stays (R137), and in `Boot` it makes control-bus accesses
only, since each operation with a stream access is selected in `Run` (R52, R53, R105); left to itself it makes one
stream access a step in `Run` (R231). That this holds whatever a harness presents rests on the model's reading that an
operation presented out of place is refused (log 11, DEDUCED). -/
def Obligations.ControlBusIsUsedOnlyInBoot : Prop :=
  ∀ s t : State, s.running → step s = .next t →
    (s.mode = .run → t.csN = s.csN ∧ ∃ es, t.trace = s.trace ++ es ∧ (∀ e ∈ es, e.isStream = true) ∧
      (s.selfDriven → es.length = 1)) ∧
    (s.mode = .boot → ∃ es, t.trace = s.trace ++ es ∧ ∀ e ∈ es, e.isControl = true)

/-- R71: the arrays are written only by RX operations (`SCHED_STEP` contains one), and each only by its own. -/
def Obligations.BufferIsWrittenOnlyByRx : Prop :=
  ∀ (i : Instr) (s t : State), exec i s = .next t → i ≠ .schedStep →
    (i ≠ .rxLt → ∀ j, t.mem.read .top j = s.mem.read .top j) ∧
    (i ≠ .rxLb → ∀ j, t.mem.read .bot j = s.mem.read .bot j)

/-- R72: a cell reads as the value of the last write to it since reset, or `0` if there was none. -/
def Obligations.CellReadsLastWrite : Prop :=
  ∀ (ws : List (BufferName × Nat × Word)) (n : BufferName) (i : Nat),
    (ws.foldl (fun m p => m.write p.1 p.2.1 p.2.2) (⟨[], []⟩ : Memory)).read n i =
      ((ws.reverse.find? fun p => decide (p.1 = n ∧ p.2.1 = i)).map fun p => p.2.2).getD 0

/-- R75: after `k` advances a cursor holds `(c0 + k) mod BUF_LEN`, and `BUF_LEN` advances visit every index once. -/
def Obligations.CursorVisitsEveryIndexOnce : Prop :=
  ∀ L c0 : Nat, c0 < L →
    (∀ k, (adv L)^[k] c0 = (c0 + k) % L) ∧ ∀ i, i < L → ∃! k, k < L ∧ (adv L)^[k] c0 = i

/-- R211, at every point of a run: `wc = nrx mod BUF_LEN`, `rc = (BUF_LEN − DELAY + ntx) mod BUF_LEN`, and so
`(wc − rc) mod BUF_LEN = (DELAY + nrx − ntx) mod BUF_LEN`, of every state that any number of steps reaches from one that
meets the invariant, as the reset state does. -/
def Obligations.CursorTrailFollowsFrameCounts : Prop :=
  ∀ (s t : State) (n : Nat), s.Inv → Host.Core.run Sys2Proof.core n s = .next t →
    t.config = s.config ∧
    t.wc = t.nrx % s.config.bufLen ∧
    t.rc = (s.config.bufLen - s.config.delay + t.ntx) % s.config.bufLen ∧
    ((t.wc : Int) - t.rc) % s.config.bufLen = ((s.config.delay : Int) + t.nrx - t.ntx) % s.config.bufLen ∧
    (t.nrx = t.ntx → ((t.wc : Int) - t.rc) % s.config.bufLen = s.config.delay)

/-! ## The delay law -/

/-- R175, R195 and R213 as an invariant of every step, whatever a harness presents (log 11): phases, frame counts and
the contents of both arrays follow the words moved since reset. -/
def Obligations.StepKeepsStreamLaw : Prop :=
  ∀ s t : State, s.Inv → s.StreamLaw → step s = .next t → t.StreamLaw ∧ (s.selfDriven → t.selfDriven)

/-- The stream law, the pulse law and the delayed outputs hold right after reset. -/
def Obligations.ResetMeetsStreamLaws : Prop :=
  ∀ c : Config, (State.resetOf c).StreamLaw ∧ (State.resetOf c).PulseLaw ∧ (State.resetOf c).Delayed ∧
    (State.resetOf c).selfDriven

/-- `latestFrame` is what R214 calls the latest RX frame `k < n` with `k ≡ i (mod BUF_LEN)`. -/
def Obligations.LatestFrameIsTheLatest : Prop :=
  ∀ L i n : Nat,
    (∀ k, latestFrame L i n = some k ↔ k < n ∧ k % L = i ∧ ∀ k', k < k' → k' < n → k' % L ≠ i) ∧
    (latestFrame L i n = none ↔ ∀ k, k < n → k % L ≠ i)

/-- R214: the word sent by TX frame `j` is that of the latest RX frame stored at its index, which is frame `j − DELAY`
exactly when the drift lies in its window; in the window it is the delayed input, `0` for a frame before the first. -/
def Obligations.TxFrameSendsLatestStored : Prop :=
  ∀ s : State, s.Inv → s.StreamLaw →
    (s.txPhase = .leftTop → ∃ t, exec .txLt s = .next t ∧
      t.trace = s.trace ++ [.txDataWrite (storedWord s.config.bufLen (rxWordsOf s.trace) 0
        (topFrames (rxWordsOf s.trace).length) ((s.ntx + s.config.bufLen - s.config.delay) % s.config.bufLen))] ∧
      (inWindow s.config (topFrames (rxWordsOf s.trace).length) s.ntx →
        t.trace = s.trace ++ [.txDataWrite (delayedWord s.config.delay (rxWordsOf s.trace) 0 s.ntx)])) ∧
    (s.txPhase = .leftBot → ∃ t, exec .txLb s = .next t ∧
      t.trace = s.trace ++ [.txDataWrite (storedWord s.config.bufLen (rxWordsOf s.trace) 1
        (botFrames (rxWordsOf s.trace).length) ((s.ntx + s.config.bufLen - s.config.delay) % s.config.bufLen))] ∧
      (inWindow s.config (botFrames (rxWordsOf s.trace).length) s.ntx →
        t.trace = s.trace ++ [.txDataWrite (delayedWord s.config.delay (rxWordsOf s.trace) 1 s.ntx)])) ∧
    ∀ n j, s.config.delay ≤ j →
      (latestFrame s.config.bufLen ((j + s.config.bufLen - s.config.delay) % s.config.bufLen) n =
        some (j - s.config.delay) ↔ inWindow s.config n j)

/-- R215: while the drift stays in its window at every `TX_LT` and `TX_LB`, every TX frame is the input delayed by
`DELAY` frames, with silence before the first and in the right channel. -/
def Obligations.StepKeepsDelayedOutputs : Prop :=
  ∀ s t : State, s.Inv → s.StreamLaw → s.Delayed → s.selfDriven → s.driftInWindow → step s = .next t → t.Delayed

/-! ## The reference stream -/

/-- R295 under the reference stream of R277: a stream that delivers two words before the poll has overrun; the flag is
sticky, so whatever else the stream does before the poll, the poll halts on it and reads no word. -/
def Obligations.TwoUnreadWordsOverrun : Prop :=
  ∀ (c : Closed) (w w' : Nat) (es : List StreamEvent), c.block.running → c.block.selfDriven →
    c.block.mode = .run → c.block.schedPc = .rxPoll →
    ∃ c', closedStep (es.foldl (fun x e => closedEvent e x)
        (closedEvent (.rxArrive w') (closedEvent (.rxArrive w) c))) = .next c' ∧
      c'.block.mode = .halted ∧ c'.block.haltCause = some .overrun ∧
      rxWordsOf c'.block.trace = rxWordsOf c.block.trace
end

