-- ==== Sys2Proof/Laws/State.lean ====
section
/-!
SUPPORT. What each named update does to each field of the state, so that no proof unfolds one.
-/

namespace Sys2Proof.Machine


/-! ## `csSet` -/

@[simp] theorem csSet_config (level : Bool) (s : State) : (csSet level s).config = s.config := rfl
@[simp] theorem csSet_mode (level : Bool) (s : State) : (csSet level s).mode = s.mode := rfl
@[simp] theorem csSet_haltCause (level : Bool) (s : State) : (csSet level s).haltCause = s.haltCause := rfl
@[simp] theorem csSet_codecState (level : Bool) (s : State) : (csSet level s).codecState = s.codecState := rfl
@[simp] theorem csSet_bootIdx (level : Bool) (s : State) : (csSet level s).bootIdx = s.bootIdx := rfl
@[simp] theorem csSet_schedPc (level : Bool) (s : State) : (csSet level s).schedPc = s.schedPc := rfl
@[simp] theorem csSet_rxPhase (level : Bool) (s : State) : (csSet level s).rxPhase = s.rxPhase := rfl
@[simp] theorem csSet_txPhase (level : Bool) (s : State) : (csSet level s).txPhase = s.txPhase := rfl
@[simp] theorem csSet_wc (level : Bool) (s : State) : (csSet level s).wc = s.wc := rfl
@[simp] theorem csSet_rc (level : Bool) (s : State) : (csSet level s).rc = s.rc := rfl
@[simp] theorem csSet_mem (level : Bool) (s : State) : (csSet level s).mem = s.mem := rfl
@[simp] theorem csSet_csN (level : Bool) (s : State) : (csSet level s).csN = level := rfl
@[simp] theorem csSet_nrx (level : Bool) (s : State) : (csSet level s).nrx = s.nrx := rfl
@[simp] theorem csSet_ntx (level : Bool) (s : State) : (csSet level s).ntx = s.ntx := rfl
@[simp] theorem csSet_trace (level : Bool) (s : State) : (csSet level s).trace = s.trace ++ [.csSet level] := rfl
@[simp] theorem csSet_env (level : Bool) (s : State) : (csSet level s).env = s.env := rfl
@[simp] theorem csSet_draws (level : Bool) (s : State) : (csSet level s).draws = s.draws := rfl
@[simp] theorem csSet_harness (level : Bool) (s : State) : (csSet level s).harness = s.harness := rfl

/-! ## `csHold` -/

@[simp] theorem csHold_config (s : State) : (csHold s).config = s.config := rfl
@[simp] theorem csHold_mode (s : State) : (csHold s).mode = s.mode := rfl
@[simp] theorem csHold_haltCause (s : State) : (csHold s).haltCause = s.haltCause := rfl
@[simp] theorem csHold_codecState (s : State) : (csHold s).codecState = s.codecState := rfl
@[simp] theorem csHold_bootIdx (s : State) : (csHold s).bootIdx = s.bootIdx := rfl
@[simp] theorem csHold_schedPc (s : State) : (csHold s).schedPc = s.schedPc := rfl
@[simp] theorem csHold_rxPhase (s : State) : (csHold s).rxPhase = s.rxPhase := rfl
@[simp] theorem csHold_txPhase (s : State) : (csHold s).txPhase = s.txPhase := rfl
@[simp] theorem csHold_wc (s : State) : (csHold s).wc = s.wc := rfl
@[simp] theorem csHold_rc (s : State) : (csHold s).rc = s.rc := rfl
@[simp] theorem csHold_mem (s : State) : (csHold s).mem = s.mem := rfl
@[simp] theorem csHold_csN (s : State) : (csHold s).csN = s.csN := rfl
@[simp] theorem csHold_nrx (s : State) : (csHold s).nrx = s.nrx := rfl
@[simp] theorem csHold_ntx (s : State) : (csHold s).ntx = s.ntx := rfl
@[simp] theorem csHold_trace (s : State) : (csHold s).trace = s.trace ++ [.csHold] := rfl
@[simp] theorem csHold_env (s : State) : (csHold s).env = s.env := rfl
@[simp] theorem csHold_draws (s : State) : (csHold s).draws = s.draws := rfl
@[simp] theorem csHold_harness (s : State) : (csHold s).harness = s.harness := rfl

/-! ## `busXfer` -/

@[simp] theorem busXfer_config (byte : Byte) (s : State) : (busXfer byte s).config = s.config := rfl
@[simp] theorem busXfer_mode (byte : Byte) (s : State) : (busXfer byte s).mode = s.mode := rfl
@[simp] theorem busXfer_haltCause (byte : Byte) (s : State) : (busXfer byte s).haltCause = s.haltCause := rfl
@[simp] theorem busXfer_codecState (byte : Byte) (s : State) : (busXfer byte s).codecState = s.codecState := rfl
@[simp] theorem busXfer_bootIdx (byte : Byte) (s : State) : (busXfer byte s).bootIdx = s.bootIdx := rfl
@[simp] theorem busXfer_schedPc (byte : Byte) (s : State) : (busXfer byte s).schedPc = s.schedPc := rfl
@[simp] theorem busXfer_rxPhase (byte : Byte) (s : State) : (busXfer byte s).rxPhase = s.rxPhase := rfl
@[simp] theorem busXfer_txPhase (byte : Byte) (s : State) : (busXfer byte s).txPhase = s.txPhase := rfl
@[simp] theorem busXfer_wc (byte : Byte) (s : State) : (busXfer byte s).wc = s.wc := rfl
@[simp] theorem busXfer_rc (byte : Byte) (s : State) : (busXfer byte s).rc = s.rc := rfl
@[simp] theorem busXfer_mem (byte : Byte) (s : State) : (busXfer byte s).mem = s.mem := rfl
@[simp] theorem busXfer_csN (byte : Byte) (s : State) : (busXfer byte s).csN = s.csN := rfl
@[simp] theorem busXfer_nrx (byte : Byte) (s : State) : (busXfer byte s).nrx = s.nrx := rfl
@[simp] theorem busXfer_ntx (byte : Byte) (s : State) : (busXfer byte s).ntx = s.ntx := rfl
@[simp] theorem busXfer_trace (byte : Byte) (s : State) : (busXfer byte s).trace = s.trace ++ [.busXfer byte] := rfl
@[simp] theorem busXfer_env (byte : Byte) (s : State) :
    (busXfer byte s).env = { s.env with busVerdicts := s.env.busVerdicts.tail } := rfl
@[simp] theorem busXfer_draws (byte : Byte) (s : State) :
    (busXfer byte s).draws = drawsAfter s.env.busVerdicts s.draws := rfl
@[simp] theorem busXfer_harness (byte : Byte) (s : State) : (busXfer byte s).harness = s.harness := rfl

/-! ## `rxStatusRead` -/

@[simp] theorem rxStatusRead_config (s : State) : (rxStatusRead s).config = s.config := rfl
@[simp] theorem rxStatusRead_mode (s : State) : (rxStatusRead s).mode = s.mode := rfl
@[simp] theorem rxStatusRead_haltCause (s : State) : (rxStatusRead s).haltCause = s.haltCause := rfl
@[simp] theorem rxStatusRead_codecState (s : State) : (rxStatusRead s).codecState = s.codecState := rfl
@[simp] theorem rxStatusRead_bootIdx (s : State) : (rxStatusRead s).bootIdx = s.bootIdx := rfl
@[simp] theorem rxStatusRead_schedPc (s : State) : (rxStatusRead s).schedPc = s.schedPc := rfl
@[simp] theorem rxStatusRead_rxPhase (s : State) : (rxStatusRead s).rxPhase = s.rxPhase := rfl
@[simp] theorem rxStatusRead_txPhase (s : State) : (rxStatusRead s).txPhase = s.txPhase := rfl
@[simp] theorem rxStatusRead_wc (s : State) : (rxStatusRead s).wc = s.wc := rfl
@[simp] theorem rxStatusRead_rc (s : State) : (rxStatusRead s).rc = s.rc := rfl
@[simp] theorem rxStatusRead_mem (s : State) : (rxStatusRead s).mem = s.mem := rfl
@[simp] theorem rxStatusRead_csN (s : State) : (rxStatusRead s).csN = s.csN := rfl
@[simp] theorem rxStatusRead_nrx (s : State) : (rxStatusRead s).nrx = s.nrx := rfl
@[simp] theorem rxStatusRead_ntx (s : State) : (rxStatusRead s).ntx = s.ntx := rfl
@[simp] theorem rxStatusRead_trace (s : State) :
    (rxStatusRead s).trace = s.trace ++ [.rxStatusRead (rxStatusAnswer s)] := rfl
@[simp] theorem rxStatusRead_env (s : State) :
    (rxStatusRead s).env = { s.env with rxStatus := s.env.rxStatus.tail } := rfl
@[simp] theorem rxStatusRead_draws (s : State) : (rxStatusRead s).draws = drawsAfter s.env.rxStatus s.draws := rfl
@[simp] theorem rxStatusRead_harness (s : State) : (rxStatusRead s).harness = s.harness := rfl

/-! ## `rxDataRead` -/

@[simp] theorem rxDataRead_config (s : State) : (rxDataRead s).config = s.config := rfl
@[simp] theorem rxDataRead_mode (s : State) : (rxDataRead s).mode = s.mode := rfl
@[simp] theorem rxDataRead_haltCause (s : State) : (rxDataRead s).haltCause = s.haltCause := rfl
@[simp] theorem rxDataRead_codecState (s : State) : (rxDataRead s).codecState = s.codecState := rfl
@[simp] theorem rxDataRead_bootIdx (s : State) : (rxDataRead s).bootIdx = s.bootIdx := rfl
@[simp] theorem rxDataRead_schedPc (s : State) : (rxDataRead s).schedPc = s.schedPc := rfl
@[simp] theorem rxDataRead_rxPhase (s : State) : (rxDataRead s).rxPhase = s.rxPhase := rfl
@[simp] theorem rxDataRead_txPhase (s : State) : (rxDataRead s).txPhase = s.txPhase := rfl
@[simp] theorem rxDataRead_wc (s : State) : (rxDataRead s).wc = s.wc := rfl
@[simp] theorem rxDataRead_rc (s : State) : (rxDataRead s).rc = s.rc := rfl
@[simp] theorem rxDataRead_mem (s : State) : (rxDataRead s).mem = s.mem := rfl
@[simp] theorem rxDataRead_csN (s : State) : (rxDataRead s).csN = s.csN := rfl
@[simp] theorem rxDataRead_nrx (s : State) : (rxDataRead s).nrx = s.nrx := rfl
@[simp] theorem rxDataRead_ntx (s : State) : (rxDataRead s).ntx = s.ntx := rfl
@[simp] theorem rxDataRead_trace (s : State) : (rxDataRead s).trace = s.trace ++ [.rxDataRead (rxWordAnswer s)] := rfl
@[simp] theorem rxDataRead_env (s : State) : (rxDataRead s).env = { s.env with rxWords := s.env.rxWords.tail } := rfl
@[simp] theorem rxDataRead_draws (s : State) : (rxDataRead s).draws = drawsAfter s.env.rxWords s.draws := rfl
@[simp] theorem rxDataRead_harness (s : State) : (rxDataRead s).harness = s.harness := rfl

/-! ## `txStatusRead` -/

@[simp] theorem txStatusRead_config (s : State) : (txStatusRead s).config = s.config := rfl
@[simp] theorem txStatusRead_mode (s : State) : (txStatusRead s).mode = s.mode := rfl
@[simp] theorem txStatusRead_haltCause (s : State) : (txStatusRead s).haltCause = s.haltCause := rfl
@[simp] theorem txStatusRead_codecState (s : State) : (txStatusRead s).codecState = s.codecState := rfl
@[simp] theorem txStatusRead_bootIdx (s : State) : (txStatusRead s).bootIdx = s.bootIdx := rfl
@[simp] theorem txStatusRead_schedPc (s : State) : (txStatusRead s).schedPc = s.schedPc := rfl
@[simp] theorem txStatusRead_rxPhase (s : State) : (txStatusRead s).rxPhase = s.rxPhase := rfl
@[simp] theorem txStatusRead_txPhase (s : State) : (txStatusRead s).txPhase = s.txPhase := rfl
@[simp] theorem txStatusRead_wc (s : State) : (txStatusRead s).wc = s.wc := rfl
@[simp] theorem txStatusRead_rc (s : State) : (txStatusRead s).rc = s.rc := rfl
@[simp] theorem txStatusRead_mem (s : State) : (txStatusRead s).mem = s.mem := rfl
@[simp] theorem txStatusRead_csN (s : State) : (txStatusRead s).csN = s.csN := rfl
@[simp] theorem txStatusRead_nrx (s : State) : (txStatusRead s).nrx = s.nrx := rfl
@[simp] theorem txStatusRead_ntx (s : State) : (txStatusRead s).ntx = s.ntx := rfl
@[simp] theorem txStatusRead_trace (s : State) :
    (txStatusRead s).trace = s.trace ++ [.txStatusRead (txStatusAnswer s)] := rfl
@[simp] theorem txStatusRead_env (s : State) :
    (txStatusRead s).env = { s.env with txStatus := s.env.txStatus.tail } := rfl
@[simp] theorem txStatusRead_draws (s : State) : (txStatusRead s).draws = drawsAfter s.env.txStatus s.draws := rfl
@[simp] theorem txStatusRead_harness (s : State) : (txStatusRead s).harness = s.harness := rfl

/-! ## `txDataWrite` -/

@[simp] theorem txDataWrite_config (w : Word) (s : State) : (txDataWrite w s).config = s.config := rfl
@[simp] theorem txDataWrite_mode (w : Word) (s : State) : (txDataWrite w s).mode = s.mode := rfl
@[simp] theorem txDataWrite_haltCause (w : Word) (s : State) : (txDataWrite w s).haltCause = s.haltCause := rfl
@[simp] theorem txDataWrite_codecState (w : Word) (s : State) : (txDataWrite w s).codecState = s.codecState := rfl
@[simp] theorem txDataWrite_bootIdx (w : Word) (s : State) : (txDataWrite w s).bootIdx = s.bootIdx := rfl
@[simp] theorem txDataWrite_schedPc (w : Word) (s : State) : (txDataWrite w s).schedPc = s.schedPc := rfl
@[simp] theorem txDataWrite_rxPhase (w : Word) (s : State) : (txDataWrite w s).rxPhase = s.rxPhase := rfl
@[simp] theorem txDataWrite_txPhase (w : Word) (s : State) : (txDataWrite w s).txPhase = s.txPhase := rfl
@[simp] theorem txDataWrite_wc (w : Word) (s : State) : (txDataWrite w s).wc = s.wc := rfl
@[simp] theorem txDataWrite_rc (w : Word) (s : State) : (txDataWrite w s).rc = s.rc := rfl
@[simp] theorem txDataWrite_mem (w : Word) (s : State) : (txDataWrite w s).mem = s.mem := rfl
@[simp] theorem txDataWrite_csN (w : Word) (s : State) : (txDataWrite w s).csN = s.csN := rfl
@[simp] theorem txDataWrite_nrx (w : Word) (s : State) : (txDataWrite w s).nrx = s.nrx := rfl
@[simp] theorem txDataWrite_ntx (w : Word) (s : State) : (txDataWrite w s).ntx = s.ntx := rfl
@[simp] theorem txDataWrite_trace (w : Word) (s : State) :
    (txDataWrite w s).trace = s.trace ++ [.txDataWrite w] := rfl
@[simp] theorem txDataWrite_env (w : Word) (s : State) : (txDataWrite w s).env = s.env := rfl
@[simp] theorem txDataWrite_draws (w : Word) (s : State) : (txDataWrite w s).draws = s.draws := rfl
@[simp] theorem txDataWrite_harness (w : Word) (s : State) : (txDataWrite w s).harness = s.harness := rfl

/-! ## `raiseHalt`: only `mode`, `haltCause`, and for a bus fault `csN` and `draws` (R262) -/

@[simp] theorem raiseHalt_config (cause : FatalCause) (s : State) :
    (raiseHalt cause s).config = s.config := by cases cause <;> rfl
@[simp] theorem raiseHalt_mode (cause : FatalCause) (s : State) :
    (raiseHalt cause s).mode = .halted := by cases cause <;> rfl
@[simp] theorem raiseHalt_haltCause (cause : FatalCause) (s : State) :
    (raiseHalt cause s).haltCause = some cause := by cases cause <;> rfl
@[simp] theorem raiseHalt_codecState (cause : FatalCause) (s : State) :
    (raiseHalt cause s).codecState = s.codecState := by cases cause <;> rfl
@[simp] theorem raiseHalt_bootIdx (cause : FatalCause) (s : State) :
    (raiseHalt cause s).bootIdx = s.bootIdx := by cases cause <;> rfl
@[simp] theorem raiseHalt_schedPc (cause : FatalCause) (s : State) :
    (raiseHalt cause s).schedPc = s.schedPc := by cases cause <;> rfl
@[simp] theorem raiseHalt_rxPhase (cause : FatalCause) (s : State) :
    (raiseHalt cause s).rxPhase = s.rxPhase := by cases cause <;> rfl
@[simp] theorem raiseHalt_txPhase (cause : FatalCause) (s : State) :
    (raiseHalt cause s).txPhase = s.txPhase := by cases cause <;> rfl
@[simp] theorem raiseHalt_wc (cause : FatalCause) (s : State) :
    (raiseHalt cause s).wc = s.wc := by cases cause <;> rfl
@[simp] theorem raiseHalt_rc (cause : FatalCause) (s : State) :
    (raiseHalt cause s).rc = s.rc := by cases cause <;> rfl
@[simp] theorem raiseHalt_mem (cause : FatalCause) (s : State) :
    (raiseHalt cause s).mem = s.mem := by cases cause <;> rfl
@[simp] theorem raiseHalt_nrx (cause : FatalCause) (s : State) :
    (raiseHalt cause s).nrx = s.nrx := by cases cause <;> rfl
@[simp] theorem raiseHalt_ntx (cause : FatalCause) (s : State) :
    (raiseHalt cause s).ntx = s.ntx := by cases cause <;> rfl
@[simp] theorem raiseHalt_trace (cause : FatalCause) (s : State) :
    (raiseHalt cause s).trace = s.trace := by cases cause <;> rfl
@[simp] theorem raiseHalt_env (cause : FatalCause) (s : State) :
    (raiseHalt cause s).env = s.env := by cases cause <;> rfl
@[simp] theorem raiseHalt_harness (cause : FatalCause) (s : State) :
    (raiseHalt cause s).harness = s.harness := by cases cause <;> rfl
@[simp] theorem raiseHalt_overrun_csN (s : State) : (raiseHalt .overrun s).csN = s.csN := rfl
@[simp] theorem raiseHalt_overrun_draws (s : State) : (raiseHalt .overrun s).draws = s.draws := rfl
@[simp] theorem raiseHalt_underrun_csN (s : State) : (raiseHalt .underrun s).csN = s.csN := rfl
@[simp] theorem raiseHalt_underrun_draws (s : State) : (raiseHalt .underrun s).draws = s.draws := rfl
@[simp] theorem raiseHalt_busFault_csN (r : BusFaultRecord) (s : State) :
    (raiseHalt (.busFault r) s).csN = Config.freeCsLevel s.draws := rfl
@[simp] theorem raiseHalt_busFault_draws (r : BusFaultRecord) (s : State) :
    (raiseHalt (.busFault r) s).draws = s.draws + 1 := rfl

/-! ## `resetPassed` -/

@[simp] theorem resetPassed_config (s : State) : (resetPassed s).config = s.config := rfl
@[simp] theorem resetPassed_mode (s : State) : (resetPassed s).mode = s.mode := rfl
@[simp] theorem resetPassed_haltCause (s : State) : (resetPassed s).haltCause = s.haltCause := rfl
@[simp] theorem resetPassed_codecState (s : State) : (resetPassed s).codecState = s.codecState := rfl
@[simp] theorem resetPassed_bootIdx (s : State) : (resetPassed s).bootIdx = s.bootIdx := rfl
@[simp] theorem resetPassed_schedPc (s : State) : (resetPassed s).schedPc = s.schedPc := rfl
@[simp] theorem resetPassed_rxPhase (s : State) : (resetPassed s).rxPhase = s.rxPhase := rfl
@[simp] theorem resetPassed_txPhase (s : State) : (resetPassed s).txPhase = s.txPhase := rfl
@[simp] theorem resetPassed_wc (s : State) : (resetPassed s).wc = s.wc := rfl
@[simp] theorem resetPassed_rc (s : State) : (resetPassed s).rc = s.rc := rfl
@[simp] theorem resetPassed_mem (s : State) : (resetPassed s).mem = s.mem := rfl
@[simp] theorem resetPassed_csN (s : State) : (resetPassed s).csN = s.csN := rfl
@[simp] theorem resetPassed_nrx (s : State) : (resetPassed s).nrx = s.nrx := rfl
@[simp] theorem resetPassed_ntx (s : State) : (resetPassed s).ntx = s.ntx := rfl
@[simp] theorem resetPassed_trace (s : State) : (resetPassed s).trace = s.trace := rfl
@[simp] theorem resetPassed_draws (s : State) : (resetPassed s).draws = s.draws := rfl
@[simp] theorem resetPassed_harness (s : State) : (resetPassed s).harness = s.harness := rfl
@[simp] theorem resetPassed_env (s : State) :
    (resetPassed s).env = { s.env with resets := s.env.resets.tail } := rfl

/-! ## `takeReset`: the values of R57 -/

@[simp] theorem takeReset_config (s : State) : (takeReset s).config = s.config := rfl
@[simp] theorem takeReset_mode (s : State) : (takeReset s).mode = .boot := rfl
@[simp] theorem takeReset_haltCause (s : State) : (takeReset s).haltCause = none := rfl
@[simp] theorem takeReset_codecState (s : State) : (takeReset s).codecState = .reset := rfl
@[simp] theorem takeReset_bootIdx (s : State) : (takeReset s).bootIdx = 0 := rfl
@[simp] theorem takeReset_schedPc (s : State) : (takeReset s).schedPc = .rxPoll := rfl
@[simp] theorem takeReset_rxPhase (s : State) : (takeReset s).rxPhase = .leftTop := rfl
@[simp] theorem takeReset_txPhase (s : State) : (takeReset s).txPhase = .leftTop := rfl
@[simp] theorem takeReset_wc (s : State) : (takeReset s).wc = 0 := rfl
@[simp] theorem takeReset_rc (s : State) : (takeReset s).rc = s.config.bufLen - s.config.delay := rfl
@[simp] theorem takeReset_mem (s : State) : (takeReset s).mem = ⟨[], []⟩ := rfl
@[simp] theorem takeReset_csN (s : State) : (takeReset s).csN = true := rfl
@[simp] theorem takeReset_nrx (s : State) : (takeReset s).nrx = 0 := rfl
@[simp] theorem takeReset_ntx (s : State) : (takeReset s).ntx = 0 := rfl
@[simp] theorem takeReset_trace (s : State) : (takeReset s).trace = [] := rfl
@[simp] theorem takeReset_env (s : State) : (takeReset s).env = { s.env with resets := s.env.resets.tail } := rfl
@[simp] theorem takeReset_draws (s : State) : (takeReset s).draws = s.draws := rfl
@[simp] theorem takeReset_harness (s : State) : (takeReset s).harness = [] := rfl

/-! ## Answers do not see other ports -/

@[simp] theorem busAnswer_csSet (level : Bool) (s : State) : busAnswer (csSet level s) = busAnswer s := rfl
@[simp] theorem busAnswer_csHold (s : State) : busAnswer (csHold s) = busAnswer s := rfl
@[simp] theorem rxWordAnswer_csSet (level : Bool) (s : State) : rxWordAnswer (csSet level s) = rxWordAnswer s := rfl
@[simp] theorem rxStatusAnswer_csSet (level : Bool) (s : State) :
    rxStatusAnswer (csSet level s) = rxStatusAnswer s := rfl
@[simp] theorem txStatusAnswer_csSet (level : Bool) (s : State) :
    txStatusAnswer (csSet level s) = txStatusAnswer s := rfl

end Sys2Proof.Machine
end

