-- ==== Sys2Proof/Laws/Memory.lean ====
section
/-!
SUPPORT. The delay buffer's primitives: reading after writing (spec/20_memory.md R72, R73), and the canonical form.
-/

namespace Sys2Proof.Machine

/-! ## Reading after writing -/

@[simp] theorem cellRead_nil (i : Nat) : cellRead i [] = 0 := rfl

theorem cellRead_cons (i j : Nat) (w : Word) (rest : List (Nat × Word)) :
    cellRead i ((j, w) :: rest) = if j = i then w else cellRead i rest := rfl

theorem cellRead_cellErase_same (i : Nat) (cells : List (Nat × Word)) :
    cellRead i (cellErase i cells) = 0 := by
  induction cells with
  | nil => rfl
  | cons p rest ih =>
    obtain ⟨j, w⟩ := p
    by_cases h : j = i <;> simp [cellErase, cellRead_cons, h, ih]

theorem cellRead_cellErase_other {i j : Nat} (h : j ≠ i) (cells : List (Nat × Word)) :
    cellRead j (cellErase i cells) = cellRead j cells := by
  induction cells with
  | nil => rfl
  | cons p rest ih =>
    obtain ⟨k, w⟩ := p
    by_cases hk : k = i
    · subst hk
      simp [cellErase, cellRead_cons, ih, Ne.symm h]
    · simp [cellErase, cellRead_cons, hk, ih]

/-- An array in which index `i` is not listed reads the inserted cell, and every other cell as before. -/
theorem cellRead_cellInsert_erased (i j : Nat) (v : Word) (cells : List (Nat × Word)) :
    cellRead j (cellInsert i v (cellErase i cells)) = if j = i then v else cellRead j cells := by
  induction cells with
  | nil => simp [cellErase, cellInsert, cellRead_cons, eq_comm]
  | cons p rest ih =>
    obtain ⟨k, w⟩ := p
    by_cases hk : k = i
    · subst hk
      by_cases h : j = k
      · simpa [cellErase, h] using ih
      · simpa [cellErase, cellRead_cons, h, Ne.symm h] using ih
    · by_cases hlt : i < k
      · by_cases h : j = i
        · simp [cellErase, cellInsert, cellRead_cons, hk, hlt, h]
        · simp [cellErase, cellInsert, cellRead_cons, hk, hlt, h, Ne.symm h, cellRead_cellErase_other h]
      · by_cases h : j = i
        · subst h
          simpa [cellErase, cellInsert, cellRead_cons, hk, hlt] using ih
        · by_cases hkj : k = j
          · subst hkj
            simp [cellErase, cellInsert, cellRead_cons, hk, hlt]
          · simpa [cellErase, cellInsert, cellRead_cons, hk, hlt, hkj, h] using ih

theorem cellRead_cellWrite (i j : Nat) (v : Word) (cells : List (Nat × Word)) :
    cellRead j (cellWrite i v cells) = if j = i then v else cellRead j cells := by
  unfold cellWrite
  split
  · by_cases h : j = i
    · subst h
      simp [cellRead_cellErase_same, *]
    · simp [h, cellRead_cellErase_other h]
  · exact cellRead_cellInsert_erased i j v cells

/-- What `BufWrite` does to every cell of both arrays (R73). -/
theorem Memory.read_write (m : Memory) (n n' : BufferName) (i j : Nat) (v : Word) :
    (m.write n i v).read n' j = if n' = n ∧ j = i then v else m.read n' j := by
  cases n <;> cases n' <;>
    simp [Memory.write, Memory.read, Memory.cells, cellRead_cellWrite]

@[simp] theorem Memory.read_empty (n : BufferName) (i : Nat) :
    (⟨[], []⟩ : Memory).read n i = 0 := by
  cases n <;> rfl

/-! ## The canonical form -/

/-- Every listed index is at least `n`, indices rise strictly, and no listed word is zero. -/
def cellsFrom (n : Nat) : List (Nat × Word) → Prop
  | [] => True
  | (i, w) :: rest => n ≤ i ∧ w ≠ 0 ∧ cellsFrom (i + 1) rest

theorem cellsFrom_mono {n m : Nat} (h : n ≤ m) {cells : List (Nat × Word)} (hc : cellsFrom m cells) :
    cellsFrom n cells := by
  cases cells with
  | nil => trivial
  | cons p rest => exact ⟨h.trans hc.1, hc.2⟩

theorem cellsWf_cons_iff (i : Nat) (w : Word) (rest : List (Nat × Word)) :
    cellsWf ((i, w) :: rest) = true ↔ w ≠ 0 ∧ cellsFrom (i + 1) rest := by
  induction rest generalizing i w with
  | nil => simp [cellsWf, cellsFrom]
  | cons p rest ih =>
    obtain ⟨j, v⟩ := p
    simp only [cellsWf, Bool.and_eq_true, decide_eq_true_eq, ih, cellsFrom, Nat.succ_le_iff]
    tauto

theorem cellsWf_iff_cellsFrom (cells : List (Nat × Word)) : cellsWf cells = true ↔ cellsFrom 0 cells := by
  cases cells with
  | nil => simp [cellsWf, cellsFrom]
  | cons p rest =>
    obtain ⟨i, w⟩ := p
    simp [cellsWf_cons_iff, cellsFrom]

theorem cellsFrom_cellErase {n : Nat} (i : Nat) {cells : List (Nat × Word)} (hc : cellsFrom n cells) :
    cellsFrom n (cellErase i cells) := by
  induction cells generalizing n with
  | nil => trivial
  | cons p rest ih =>
    obtain ⟨j, w⟩ := p
    by_cases h : j = i
    · simpa [cellErase, h] using ih (cellsFrom_mono (Nat.le_succ_of_le hc.1) hc.2.2)
    · simpa [cellErase, h] using ⟨hc.1, hc.2.1, ih hc.2.2⟩

theorem cellsFrom_cellInsert_erased {n i : Nat} {v : Word} (hi : n ≤ i) (hv : v ≠ 0)
    {cells : List (Nat × Word)} (hc : cellsFrom n cells) :
    cellsFrom n (cellInsert i v (cellErase i cells)) := by
  induction cells generalizing n with
  | nil => exact ⟨hi, hv, trivial⟩
  | cons p rest ih =>
    obtain ⟨j, w⟩ := p
    by_cases h : j = i
    · simpa [cellErase, h] using ih hi (cellsFrom_mono (Nat.le_succ_of_le hc.1) hc.2.2)
    · by_cases hlt : i < j
      · simpa [cellErase, cellInsert, h, hlt] using
          ⟨hi, hv, hlt, hc.2.1, cellsFrom_cellErase i hc.2.2⟩
      · have hji : j + 1 ≤ i := by omega
        simpa [cellErase, cellInsert, h, hlt] using ⟨hc.1, hc.2.1, ih hji hc.2.2⟩

theorem cellsWf_cellWrite (i : Nat) (v : Word) {cells : List (Nat × Word)} (h : cellsWf cells = true) :
    cellsWf (cellWrite i v cells) = true := by
  rw [cellsWf_iff_cellsFrom] at h ⊢
  unfold cellWrite
  split
  · exact cellsFrom_cellErase i h
  · exact cellsFrom_cellInsert_erased (Nat.zero_le i) ‹_› h

/-- `BufWrite`, the one operation that writes the memory, keeps its canonical form. -/
theorem Memory.wf_write {m : Memory} (h : m.wf = true) (n : BufferName) (i : Nat) (v : Word) :
    (m.write n i v).wf = true := by
  simp only [Memory.wf, Bool.and_eq_true] at h
  cases n <;> simp [Memory.write, Memory.wf, h, cellsWf_cellWrite]

theorem reset_mem_wf : State.reset.mem.wf = true := rfl

end Sys2Proof.Machine
end

