-- ==== Sys2Proof/Laws/Ops.lean ====
section
/-!
SUPPORT. What each shared operation can do, said once: later proofs cite these and do not unfold the operation.
-/

namespace Sys2Proof.Machine

/-! ## Sequencing -/

@[simp] theorem andThen_next (s : State) (f : State → Result) : andThen (.next s) f = f s := rfl
@[simp] theorem andThen_fault (e : Fault) (f : State → Result) : andThen (.fault e) f = .fault e := rfl
@[simp] theorem andThen_refused (e : Refusal) (f : State → Result) : andThen (.refused e) f = .refused e := rfl

theorem andThen_eq_next {r : Result} {f : State → Result} {t : State} (h : andThen r f = .next t) :
    ∃ s, r = .next s ∧ f s = .next t := by
  cases r with
  | next s => exact ⟨s, rfl, h⟩
  | fault e => cases h
  | refused e => cases h

/-! ## Buffer primitives -/

theorem bufWrite_in {n : BufferName} {i : Nat} {s : State} (h : i < s.config.bufLen) (v : Word) :
    bufWrite n i v s = .next { s with mem := s.mem.write n i v } := if_pos h

theorem bufWrite_out {n : BufferName} {i : Nat} {s : State} (h : ¬ i < s.config.bufLen) (v : Word) :
    bufWrite n i v s = .fault (.bufferIndex n i) := if_neg h

theorem bufWrite_eq_next {n : BufferName} {i : Nat} {v : Word} {s t : State} (h : bufWrite n i v s = .next t) :
    i < s.config.bufLen ∧ t = { s with mem := s.mem.write n i v } := by
  by_cases hi : i < s.config.bufLen
  · rw [bufWrite_in hi] at h
    exact ⟨hi, by cases h; rfl⟩
  · rw [bufWrite_out hi] at h
    cases h

theorem bufRead_in {n : BufferName} {i : Nat} {s : State} (h : i < s.config.bufLen) (f : Word → Result) :
    bufRead n i s f = f (s.mem.read n i) := if_pos h

theorem bufRead_out {n : BufferName} {i : Nat} {s : State} (h : ¬ i < s.config.bufLen) (f : Word → Result) :
    bufRead n i s f = .fault (.bufferIndex n i) := if_neg h

theorem bufRead_eq_next {n : BufferName} {i : Nat} {s t : State} {f : Word → Result}
    (h : bufRead n i s f = .next t) : i < s.config.bufLen ∧ f (s.mem.read n i) = .next t := by
  by_cases hi : i < s.config.bufLen
  · exact ⟨hi, by rwa [bufRead_in hi] at h⟩
  · rw [bufRead_out hi] at h
    cases h

theorem adv_lt {n : Nat} (h : 0 < n) (c : Nat) : adv n c < n := Nat.mod_lt _ h

/-! ## Phases -/

theorem code_next (p : ChannelPhase) : p.next.code = p.code + 1#2 := by cases p <;> rfl

theorem code_next_toNat (p : ChannelPhase) : p.next.code.toNat = (p.code.toNat + 1) % 4 := by cases p <;> rfl

theorem code_injective {p q : ChannelPhase} (h : p.code = q.code) : p = q := by
  cases p <;> cases q <;> first | rfl | (exact absurd h (by decide))

/-! ## The bus -/

theorem verdict_ok_of_ne_err {v : Verdict} (h : v ≠ .err) : v = .ok := by cases v <;> simp_all

/-- Everything `sendFrame` can do: both bytes pass, or the first that fails halts and nothing follows it (R134). -/
theorem sendFrame_cases (r : ControlRegister) (s : State) :
    (busAnswer s = .err ∧ sendFrame r s =
      (.err, raiseHalt (.busFault ⟨r.address, r.value, 0⟩)
        (busXfer (frameByte0 r.address r.value) (csSet false s)))) ∨
    (busAnswer s = .ok ∧
      busAnswer (busXfer (frameByte0 r.address r.value) (csSet false s)) = .err ∧ sendFrame r s =
      (.err, raiseHalt (.busFault ⟨r.address, r.value, 1⟩)
        (busXfer (frameByte1 r.value) (busXfer (frameByte0 r.address r.value) (csSet false s))))) ∨
    (busAnswer s = .ok ∧
      busAnswer (busXfer (frameByte0 r.address r.value) (csSet false s)) = .ok ∧ sendFrame r s =
      (.ok, csHold (csSet true
        (busXfer (frameByte1 r.value) (busXfer (frameByte0 r.address r.value) (csSet false s)))))) := by
  by_cases h0 : busAnswer s = .err
  · exact .inl ⟨h0, by simp [sendFrame, h0]⟩
  · have h0' := verdict_ok_of_ne_err h0
    by_cases h1 : busAnswer (busXfer (frameByte0 r.address r.value) (csSet false s)) = .err
    · exact .inr (.inl ⟨h0', h1, by simp [sendFrame, h0', h1]⟩)
    · have h1' := verdict_ok_of_ne_err h1
      exact .inr (.inr ⟨h0', h1', by simp [sendFrame, h0', h1']⟩)

/-- What a frame leaves alone, whatever the bus answers (R130: "State written: `cs_n`; nothing else of the block"). -/
theorem sendFrame_frame (r : ControlRegister) (s : State) :
    (sendFrame r s).2.config = s.config ∧ (sendFrame r s).2.codecState = s.codecState ∧
    (sendFrame r s).2.bootIdx = s.bootIdx ∧ (sendFrame r s).2.schedPc = s.schedPc ∧
    (sendFrame r s).2.rxPhase = s.rxPhase ∧ (sendFrame r s).2.txPhase = s.txPhase ∧
    (sendFrame r s).2.wc = s.wc ∧ (sendFrame r s).2.rc = s.rc ∧ (sendFrame r s).2.mem = s.mem ∧
    (sendFrame r s).2.nrx = s.nrx ∧ (sendFrame r s).2.ntx = s.ntx ∧
    (sendFrame r s).2.harness = s.harness := by
  obtain ⟨-, h⟩ | ⟨-, -, h⟩ | ⟨-, -, h⟩ := sendFrame_cases r s <;> simp [h]

/-! ## Words -/

theorem portWord_lt (c : Config) (n : Nat) : portWord c n < 2 ^ c.wordBits := Nat.mod_lt _ (Nat.two_pow_pos _)

/-- A word that fits the port passes as it is (R170: "taken as is"). -/
theorem portWord_of_lt {c : Config} {n : Nat} (h : n < 2 ^ c.wordBits) : portWord c n = n := Nat.mod_eq_of_lt h

theorem rxWordAnswer_lt (s : State) : rxWordAnswer s < 2 ^ s.config.wordBits := by
  unfold rxWordAnswer
  split <;> exact portWord_lt _ _

/-! ## The reset source -/

theorem resetPassed_eq_self {s : State} (h : s.env.resets = []) : resetPassed s = s := by
  have e : ({ s.env with resets := s.env.resets.tail } : Env) = s.env := by
    cases he : s.env
    simp_all
  unfold resetPassed
  rw [e]

/-! ## Bring-up -/

/-- What `bringupAdvance` writes (R152 to R154). -/
theorem bringupAdvance_eq (s : State) :
    bringupAdvance s = { s with
      bootIdx := s.bootIdx + 1
      codecState :=
        if s.bootIdx + 1 = s.config.nBringup then .active
        else if s.bootIdx + 1 = s.config.actIdx then .configured else s.codecState
      mode := if s.bootIdx + 1 = s.config.nBringup then .run else s.mode
      schedPc := if s.bootIdx + 1 = s.config.nBringup then .rxPoll else s.schedPc } := by
  unfold bringupAdvance
  by_cases h1 : s.bootIdx + 1 = s.config.actIdx <;> by_cases h2 : s.bootIdx + 1 = s.config.nBringup <;>
    simp_all

/-! ## Selection -/

theorem operationBytes_selfDriven {s : State} (h : s.harness = []) :
    operationBytes s = (nextKey s).map fun k => [keyByte k] := by
  unfold operationBytes
  cases nextKey s with
  | none => rfl
  | some k => simp [h]

/-- What the block selects itself is in place, or is refused by its own meaning (R105). -/
theorem placed_of_nextKey {i : Instr} {s : State} (h : nextKey s = some i.key) : placed i s = true := by
  cases i with
  | halt c =>
    exfalso
    revert h
    unfold nextKey
    cases s.mode <;> cases s.schedPc <;> cases s.rxPhase <;> cases s.txPhase <;>
      simp [ChannelPhase.code, Instr.key]
  | _ => simp [placed, h]

theorem nextKey_eq_none {s : State} : nextKey s = none ↔ s.mode = .halted := by
  unfold nextKey
  cases s.mode with
  | halted => simp
  | boot => simp
  | run => cases s.schedPc <;> simp

end Sys2Proof.Machine
end

