-- ==== Sys2Proof/Laws/PerInstr.lean ====
section
/-!
SUPPORT. A fact of every operation's encoding, one lemma for each constructor: its bytes begin with its dispatch key
(spec/30_encoding.md R104), which fits the low half of the byte.
-/

namespace Sys2Proof.Laws.KeyFirst

/-- The first byte of an operation's encoding is its key, and no other operation's encoding begins so unless the two
have the same key. -/
def Statement (i : Instr) : Prop :=
  (encode i).head? = some (keyByte i.key) ∧ (keyByte i.key).toNat = i.key.toNat

theorem of_key (i : Instr) : Statement i :=
  ⟨rfl, by simp only [keyByte, BitVec.toNat_setWidth]; omega⟩

theorem ctrlWrite (address value : Nat) : Statement (.ctrlWrite address value) := of_key _
theorem reserved0001 : Statement .reserved0001 := of_key _
theorem bringupStep : Statement .bringupStep := of_key _
theorem reserved0011 : Statement .reserved0011 := of_key _
theorem rxLt : Statement .rxLt := of_key _
theorem rxLb : Statement .rxLb := of_key _
theorem rxRt : Statement .rxRt := of_key _
theorem rxRb : Statement .rxRb := of_key _
theorem txLt : Statement .txLt := of_key _
theorem txLb : Statement .txLb := of_key _
theorem txRt : Statement .txRt := of_key _
theorem txRb : Statement .txRb := of_key _
theorem rxPoll : Statement .rxPoll := of_key _
theorem txPoll : Statement .txPoll := of_key _
theorem schedStep : Statement .schedStep := of_key _
theorem halt (cause : Option FatalCause) : Statement (.halt cause) := of_key _

end Sys2Proof.Laws.KeyFirst
end

