-- ==== Sys2Proof/Laws/Run.lean ====
section
/-!
SUPPORT. Unfolding the host's `run` one step at a time.
-/

namespace Sys2Proof.Machine

theorem host_run_succ (M : Host.Core) (k : Nat) (s : M.State) :
    M.run (k + 1) s = match M.step s with
      | .next s' => M.run k s'
      | .fault r => .fault r
      | .refused r => .refused r := rfl

@[simp] theorem run_zero (s : State) : Host.Core.run Sys2Proof.core 0 s = .next s := rfl

theorem run_succ_next {s t : State} (h : step s = .next t) (k : Nat) :
    Host.Core.run Sys2Proof.core (k + 1) s = Host.Core.run Sys2Proof.core k t := by
  have e : Sys2Proof.core.step s = .next t := h
  rw [host_run_succ Sys2Proof.core k s, e]

theorem run_succ_fault {s : State} {r : Fault} (h : step s = .fault r) (k : Nat) :
    Host.Core.run Sys2Proof.core (k + 1) s = .fault r := by
  have e : Sys2Proof.core.step s = .fault r := h
  rw [host_run_succ Sys2Proof.core k s, e]

theorem run_succ_refused {s : State} {r : Refusal} (h : step s = .refused r) (k : Nat) :
    Host.Core.run Sys2Proof.core (k + 1) s = .refused r := by
  have e : Sys2Proof.core.step s = .refused r := h
  rw [host_run_succ Sys2Proof.core k s, e]

/-- The last step of a run that has reached `t`. -/
theorem run_succ_last {k : Nat} {s t : State} (h : Host.Core.run Sys2Proof.core k s = .next t) :
    Host.Core.run Sys2Proof.core (k + 1) s = step t := by
  induction k generalizing s with
  | zero =>
    cases h
    cases hs : step t with
    | next u => exact run_succ_next hs 0
    | fault r => exact run_succ_fault hs 0
    | refused r => exact run_succ_refused hs 0
  | succ k ih =>
    cases hs : step s with
    | next u =>
      rw [run_succ_next hs] at h ⊢
      exact ih h
    | fault r =>
      rw [run_succ_fault hs] at h
      cases h
    | refused r =>
      rw [run_succ_refused hs] at h
      cases h

end Sys2Proof.Machine
end

