-- ==== Sys2Proof/Tests/Slice0.lean ====
section
/-!
SUPPORT. Our own tests: the refusals of ill-formed terms, words written out from the spec's encodings, one-step vectors
of spec/95_test_vectors.md, and for each statement with hypotheses a state that meets them.
-/

namespace Sys2Proof.Tests

open Sys2Proof.Machine

/-! ## Small states -/

/-- The configuration of the vectors: `WORD_BITS = 16`, `BUF_LEN = 4`, `DELAY = 2`, and the bring-up list of V-B. -/
def cfg : Config := ⟨16, 4, 2, 48000, [⟨0x0F, 0x000⟩, ⟨0x09, 0x001⟩, ⟨0x06, 0x000⟩], 1, true⟩

/-- In `Boot` at `bootIdx`, with the bus's coming verdicts. -/
def booting (bootIdx : Nat) (verdicts : List Verdict) : State :=
  { State.resetOf cfg with
    bootIdx := bootIdx
    codecState := codecStateAt cfg bootIdx
    env := ⟨[], [], [], verdicts, []⟩ }

/-- In `Run` right after bring-up, at a scheduler position and in given phases. -/
def looping (pc : SchedPc) (rx tx : ChannelPhase) : State :=
  { State.resetOf cfg with
    mode := .run
    bootIdx := 3
    codecState := .active
    schedPc := pc
    rxPhase := rx
    txPhase := tx }

/-- `looping` with the stream's coming answers. -/
def answered (pc : SchedPc) (rx tx : ChannelPhase) (rxs : List RxStatus) (ws : List Nat) (txs : List TxStatus) : State :=
  { looping pc rx tx with env := ⟨rxs, ws, txs, [], []⟩ }

/-- A halted block, with a harness still presenting an operation. -/
def stuck : State :=
  { looping .rxPoll .leftTop .leftTop with
    mode := .halted
    haltCause := some .overrun
    harness := [0x04#8] }

/-- No reset stands in the source's list. -/
theorem quiet_of_none {s : State} (h : s.env.resets = []) : s.quiet := by
  intro b hb
  rw [h] at hb
  exact nomatch hb

/-- What a result's next state says, if there is one. -/
def after {α : Type} (r : Result) (f : State → α) : Option α :=
  match r with
  | .next t => some (f t)
  | .fault _ => none
  | .refused _ => none

/-- The fault a result names, if it is one. -/
def faultOf (r : Result) : Option Fault :=
  match r with
  | .next _ => none
  | .fault e => some e
  | .refused _ => none

/-- The refusal a result names, if it is one. -/
def refusalOf (r : Result) : Option Refusal :=
  match r with
  | .next _ => none
  | .fault _ => none
  | .refused e => some e

/-! ## Ill-formed terms are refused -/

theorem test_wide_address_ill_formed : (Instr.ctrlWrite 0x80 0x000).wf = false := by decide
theorem test_wide_value_ill_formed : (Instr.ctrlWrite 0x00 0x200).wf = false := by decide
theorem test_widest_operands_well_formed : (Instr.ctrlWrite 0x7F 0x1FF).wf = true := by decide

theorem test_config_arrays_differ : (⟨16, 4, 5, 2, 48000, [], 1, true⟩ : RawConfig).accept.toOption = none := by decide
theorem test_config_short_buffer : (⟨16, 1, 1, 1, 48000, [], 1, true⟩ : RawConfig).accept.toOption = none := by decide
theorem test_config_zero_delay : (⟨16, 4, 4, 0, 48000, [], 1, true⟩ : RawConfig).accept.toOption = none := by decide
/-- V-E5: `DELAY = BUF_LEN` is refused. -/
theorem test_config_delay_is_length : (⟨16, 4, 4, 4, 48000, [], 1, true⟩ : RawConfig).accept.toOption = none := by decide
theorem test_config_clock : (⟨16, 4, 4, 2, 48000, [], 1, false⟩ : RawConfig).accept.toOption = none := by decide
theorem test_config_wide_operand :
    (⟨16, 4, 4, 2, 48000, [(0x0F, 0), (0x80, 0)], 1, true⟩ : RawConfig).accept.toOption = none := by decide
theorem test_config_accepts :
    (⟨16, 4, 4, 2, 48000, [(0x0F, 0), (0x09, 1), (0x06, 0)], 1, true⟩ : RawConfig).accept.toOption = some cfg := by decide

/-! ## Decoding, on words written out from the spec -/

/-- R104: address `0000111`, value `101001010` (V-F4): the frame `0000111 1 01001010`. -/
theorem test_decode_ctrl_write : decodeTableWord 16 0b0000111101001010 = some (.ctrlWrite 0x07 0x14A) := by decide
/-- V-F1 to V-F3, V-F6, V-F7 and V-F9. -/
theorem test_decode_frames :
    decodeTableWord 16 0x1E00 = some (.ctrlWrite 0x0F 0x000) ∧ decodeTableWord 16 0x0C10 = some (.ctrlWrite 0x06 0x010) ∧
    decodeTableWord 16 0x1201 = some (.ctrlWrite 0x09 0x001) ∧ decodeTableWord 16 0x0000 = some (.ctrlWrite 0x00 0x000) ∧
    decodeTableWord 16 0x0100 = some (.ctrlWrite 0x00 0x100) ∧
    decodeTableWord 16 0x2000 = some (.ctrlWrite 0x10 0x000) := by decide
theorem test_decode_reserved :
    decodeTableWord 8 0b0001 = some .reserved0001 ∧ decodeTableWord 8 0b0011 = some .reserved0011 := by decide
theorem test_decode_bringup : decodeTableWord 8 0b0010 = some .bringupStep := by decide
theorem test_decode_rx :
    decodeTableWord 8 0b0100 = some .rxLt ∧ decodeTableWord 8 0b0101 = some .rxLb ∧
    decodeTableWord 8 0b0110 = some .rxRt ∧ decodeTableWord 8 0b0111 = some .rxRb := by decide
theorem test_decode_tx :
    decodeTableWord 8 0b1000 = some .txLt ∧ decodeTableWord 8 0b1001 = some .txLb ∧
    decodeTableWord 8 0b1010 = some .txRt ∧ decodeTableWord 8 0b1011 = some .txRb := by decide
theorem test_decode_scheduler :
    decodeTableWord 8 0b1100 = some .rxPoll ∧ decodeTableWord 8 0b1101 = some .txPoll ∧
    decodeTableWord 8 0b1110 = some .schedStep := by decide
theorem test_decode_halt : decodeTableWord 8 0b1111 = some (.halt none) := by decide
theorem test_decode_no_key : decodeTableWord 8 0x10 = none ∧ decode [] = .error .noBytes := ⟨by decide, rfl⟩

/-! ## One step of each operation (spec/95_test_vectors.md) -/

/-- V-F14 with V-F4's operands: the five events of R130's example. -/
theorem test_ctrl_write_events :
    after (exec (.ctrlWrite 0x07 0x14A) (booting 0 [.ok, .ok])) (fun t => (t.trace, t.csN, t.mode)) =
      some ([.csSet false, .busXfer 0x0F, .busXfer 0x4A, .csSet true, .csHold], true, .boot) := by decide

/-- V-F13: byte1 fails. -/
theorem test_ctrl_write_second_byte_fails :
    after (exec (.ctrlWrite 0x07 0x14A) (booting 0 [.ok, .err])) (fun t => (t.trace, t.mode, t.haltCause)) =
      some ([.csSet false, .busXfer 0x0F, .busXfer 0x4A], .halted, some (.busFault ⟨0x07, 0x14A, 1⟩)) := by decide

/-- P1, third write: `Active` and `Run`. -/
theorem test_bringup_last_write :
    after (exec .bringupStep (booting 2 [.ok, .ok])) (fun t => (t.bootIdx, t.codecState, t.mode, t.trace)) =
      some (3, .active, .run, [.csSet false, .busXfer 0x0C, .busXfer 0x00, .csSet true, .csHold]) := by decide

/-- P5, second write: byte0 fails; `boot_idx` and `codec_state` stay. -/
theorem test_bringup_fails :
    after (exec .bringupStep (booting 1 [.err])) (fun t => (t.bootIdx, t.codecState, t.mode, t.haltCause)) =
      some (1, .configured, .halted, some (.busFault ⟨0x09, 0x001, 0⟩)) := by decide

/-- R171's example: `wc = 3`, word `0x1234`. -/
theorem test_rx_lt :
    after (exec .rxLt { answered .rxService .leftTop .leftTop [] [0x1234] [] with wc := 3 })
      (fun t => (t.mem.top, t.mem.bot, t.wc, t.rxPhase, t.schedPc)) =
      some ([(3, 0x1234)], [], 3, .leftBot, .txPoll) := by decide

/-- R9: `WORD_BITS` is a parameter; a 12-bit port carries 12 bits of what is offered. -/
theorem test_rx_lt_other_width :
    after (exec .rxLt { answered .rxService .leftTop .leftTop [] [0x1234] [] with config := { cfg with wordBits := 12 } })
      (fun t => (t.mem.top, t.trace)) = some ([(0, 0x234)], [.rxDataRead 0x234]) := by decide

/-- V-R4: the wrap. -/
theorem test_rx_lb_wraps :
    after (exec .rxLb { answered .rxService .leftBot .leftTop [] [0x0001] [] with wc := 3 })
      (fun t => (t.mem.top, t.mem.bot, t.wc, t.rxPhase, t.nrx)) = some ([], [(3, 0x0001)], 0, .rightTop, 1) := by decide

/-- R173: a right-channel word is consumed and discarded. -/
theorem test_rx_rt :
    after (exec .rxRt (answered .rxService .rightTop .leftTop [] [0x7777, 0x1] []))
      (fun t => (t.mem.top, t.mem.bot, t.wc, t.rxPhase, t.env.rxWords)) = some ([], [], 0, .rightBot, [0x1]) := by decide

/-- V-R5. -/
theorem test_rx_rb :
    after (exec .rxRb (answered .rxService .rightBot .leftTop [] [0x0000] []))
      (fun t => (t.wc, t.rxPhase, t.schedPc)) = some (0, .leftTop, .txPoll) := by decide

/-- V-T1. -/
theorem test_tx_lt :
    after (exec .txLt { looping .txService .leftTop .leftTop with mem := ⟨[(0, 1), (1, 2), (2, 3), (3, 4)], []⟩ })
      (fun t => (t.trace, t.rc, t.txPhase, t.schedPc)) = some ([.txDataWrite 3], 2, .leftBot, .rxPoll) := by decide

/-- V-T4: the wrap. -/
theorem test_tx_lb_wraps :
    after (exec .txLb { looping .txService .leftTop .leftBot with mem := ⟨[], [(3, 0x31)]⟩, rc := 3 })
      (fun t => (t.trace, t.rc, t.txPhase, t.ntx)) = some ([.txDataWrite 0x31], 0, .rightTop, 1) := by decide

/-- V-T3, first word: silence from a full buffer. -/
theorem test_tx_rt :
    after (exec .txRt { looping .txService .leftTop .rightTop with mem := ⟨[(2, 0xFFFF)], [(2, 0xFFFF)]⟩ })
      (fun t => (t.trace, t.rc, t.txPhase)) = some ([.txDataWrite 0], 2, .rightBot) := by decide

/-- V-T3, second word. -/
theorem test_tx_rb :
    after (exec .txRb { looping .txService .leftTop .rightBot with mem := ⟨[(2, 0xFFFF)], [(2, 0xFFFF)]⟩ })
      (fun t => (t.trace, t.rc, t.txPhase)) = some ([.txDataWrite 0], 2, .leftTop) := by decide

/-- V-S6: the fault flag wins even without `ready`. -/
theorem test_rx_poll_overrun :
    after (exec .rxPoll (answered .rxPoll .leftTop .leftTop [⟨false, true⟩] [] []))
      (fun t => (t.mode, t.haltCause, t.schedPc)) = some (.halted, some .overrun, .rxPoll) := by decide

/-- R232: ready selects the service position. -/
theorem test_rx_poll_ready :
    after (exec .rxPoll (answered .rxPoll .leftTop .leftTop [⟨true, false⟩] [] [])) (fun t => (t.mode, t.schedPc)) =
      some (.run, .rxService) := by decide

/-- V-S7, second half: underrun; no word written. -/
theorem test_tx_poll_underrun :
    after (exec .txPoll (answered .txPoll .leftTop .leftTop [] [] [⟨true, true⟩]))
      (fun t => (t.mode, t.haltCause, t.schedPc, t.trace)) =
      some (.halted, some .underrun, .txPoll, [.txStatusRead ⟨true, true⟩]) := by decide

/-- R234: not ready, the next iteration begins. -/
theorem test_tx_poll_idle :
    after (exec .txPoll (answered .txPoll .leftTop .leftTop [] [] [⟨false, false⟩])) (fun t => (t.mode, t.schedPc)) =
      some (.run, .rxPoll) := by decide

/-- V-S4: four accesses, both words moved. -/
theorem test_sched_step_full :
    after (exec .schedStep (answered .rxPoll .leftTop .leftTop [⟨true, false⟩] [0x0A] [⟨true, false⟩]))
      (fun t => (t.mem.top, t.rxPhase, t.txPhase, t.schedPc, t.trace.length)) =
      some ([(0, 0x0A)], .leftBot, .leftBot, .rxPoll, 4) := by decide

/-- V-S8: the RX word is stored, then underrun. -/
theorem test_sched_step_underrun :
    after (exec .schedStep (answered .rxPoll .leftTop .leftTop [⟨true, false⟩] [0x0A] [⟨false, true⟩]))
      (fun t => (t.mem.top, t.rxPhase, t.mode, t.haltCause, t.trace.length)) =
      some ([(0, 0x0A)], .leftBot, .halted, some .underrun, 3) := by decide

/-- R262: the halt itself makes no access and keeps `sched_pc`. -/
theorem test_halt :
    after (exec (.halt (some .underrun)) (looping .txPoll .leftTop .leftTop))
      (fun t => (t.mode, t.haltCause, t.schedPc, t.trace, t.csN)) =
      some (.halted, some .underrun, .txPoll, [], true) := by decide

/-- V-X1: reset from `Halted`. -/
theorem test_reset_from_halted :
    after (step { stuck with env := ⟨[], [], [], [], [true]⟩ })
      (fun t => (t.mode, t.haltCause, t.bootIdx, t.rc, t.csN)) = some (.boot, none, 0, 2, true) := by decide

/-- R278 with R268: a reset at any time, after a halt that a step of the same run made. -/
theorem test_reset_after_a_halting_step :
    after (andThen (step { answered .rxPoll .leftTop .leftTop [⟨true, true⟩] [] [] with
        env := ⟨[⟨true, true⟩], [], [], [], [false, true]⟩ }) step)
      (fun t => (t.mode, t.haltCause, t.schedPc, t.env.resets)) = some (.boot, none, .rxPoll, []) := by decide

/-- R137, R52: a write outside `Boot` and a data read that no poll licensed are not performed. -/
theorem test_out_of_place_refused :
    refusalOf (exec (.ctrlWrite 0x07 0x14A) (looping .rxPoll .leftTop .leftTop)) = some .notInBoot ∧
    refusalOf (step { looping .rxPoll .leftTop .leftTop with harness := [0x04#8] }) = some (.outOfPlace 4) := by decide

/-- V-S10: no step in `Halted`. -/
theorem test_halted_is_stuck : faultOf (step stuck) = some .halted := by decide

/-- R108: both reserved keys. -/
theorem test_reserved_refused :
    refusalOf (exec .reserved0001 State.reset) = some (.reservedKey 1) ∧
    refusalOf (exec .reserved0011 State.reset) = some (.reservedKey 3) := ⟨rfl, rfl⟩

/-! ## Every statement with hypotheses has a state that meets them -/

theorem witness_DecodeInvertsEncode :
    (Instr.ctrlWrite 127 511).wf = true ∧ (Instr.halt (some (.busFault ⟨127, 511, 1⟩))).wf = true := by decide

theorem witness_DecodedBytesAreItsEncoding :
    decode [0x00#8, 0x0F#8, 0x4A#8, 0x04#8] = .ok (.ctrlWrite 0x07 0x14A, [0x04#8]) ∧
    decode [0x0F#8, 0x01#8, 0xFF#8, 0xFF#8, 0x01#8] = .ok (.halt (some (.busFault ⟨0x7F, 0x1FF, 1⟩)), []) := ⟨rfl, rfl⟩

/-- One operation selected, and one presented in front of another. -/
theorem witness_StepRunsDecodedOperation :
    ((looping .rxService .leftBot .leftTop).running ∧
      operationBytes (looping .rxService .leftBot .leftTop) = some [0x05#8] ∧ decode [0x05#8] = .ok (.rxLb, [])) ∧
    ({ looping .rxPoll .leftTop .leftTop with harness := [0x0E#8, 0x04#8] } : State).running ∧
    operationBytes { looping .rxPoll .leftTop .leftTop with harness := [0x0E#8, 0x04#8] } = some [0x0E#8, 0x04#8] ∧
    decode [0x0E#8, 0x04#8] = .ok (.schedStep, [0x04#8]) :=
  ⟨⟨⟨rfl, rfl⟩, rfl, rfl⟩, ⟨rfl, rfl⟩, rfl, rfl⟩

/-- The clauses of StepRunsDecodedOperation: a selected operation and a composite one in place, one out of place. -/
theorem witness_placed :
    (placed .rxLb (looping .rxService .leftBot .leftTop) = true ∧
      nextKey (looping .rxService .leftBot .leftTop) = some Instr.rxLb.key) ∧
    placed .schedStep { looping .rxPoll .leftTop .leftTop with harness := [0x0E#8, 0x04#8] } = true ∧
    placed .rxLt { looping .rxPoll .leftTop .leftTop with harness := [0x04#8] } = false ∧
    operationBytes { looping .rxPoll .leftTop .leftTop with harness := [0x04#8] } = some [0x04#8] := by decide

theorem witness_SelfDrivenStepRunsNextOp :
    (looping .txService .leftTop .rightBot).running ∧ (looping .txService .leftTop .rightBot).selfDriven ∧
    nextKey (looping .txService .leftTop .rightBot) = some Instr.txRb.key := ⟨⟨rfl, rfl⟩, rfl, rfl⟩

theorem witness_HaltedBlockTakesNoStep : stuck.running ∧ stuck.mode = .halted := ⟨⟨rfl, rfl⟩, rfl⟩

/-- Each check of the configuration, failing alone at its boundary. -/
theorem witness_IllFormedConfigurationNeverRuns :
    ∀ c ∈ [{ cfg with bufLen := 1, delay := 0 }, { cfg with delay := 0 }, { cfg with delay := 4 },
        { cfg with clockOk := false }],
      ¬ (2 ≤ (State.resetOf c).config.bufLen ∧ 1 ≤ (State.resetOf c).config.delay ∧
        (State.resetOf c).config.delay ≤ (State.resetOf c).config.bufLen - 1 ∧
        (State.resetOf c).config.clockOk = true) := by decide

theorem witness_ParametersNeverChange : ∃ t, step (looping .rxService .leftTop .leftTop) = .next t := ⟨_, rfl⟩

theorem witness_ResetEventRestoresEveryRegister :
    ({ stuck with env := ⟨[], [], [], [], [true]⟩ } : State).config.wf = true ∧
    resetNow { stuck with env := ⟨[], [], [], [], [true]⟩ } = true := ⟨rfl, rfl⟩

theorem witness_FirstOperationAfterReset :
    resetNow { stuck with env := ⟨[], [], [], [], [true, false]⟩ } = true ∧
    ∃ t, step { stuck with env := ⟨[], [], [], [], [true, false]⟩ } = .next t ∧ resetNow t = false :=
  ⟨rfl, _, rfl, rfl⟩

theorem witness_CtrlWriteSendsFrame :
    (127 < 128 ∧ 511 < 512) ∧ (booting 0 [.ok, .ok]).mode = .boot ∧ busAnswer (booting 0 [.ok, .ok]) = .ok ∧
    secondVerdict ⟨BitVec.ofNat 7 127, BitVec.ofNat 9 511⟩ (booting 0 [.ok, .ok]) = .ok := by decide

theorem witness_CtrlWriteHaltsAtFirstFailure :
    (127 < 128 ∧ 511 < 512) ∧ (booting 0 [.err]).mode = .boot ∧ busAnswer (booting 0 [.err]) = .err ∧
    (booting 0 [.ok, .err]).mode = .boot ∧
    busAnswer (booting 0 [.ok, .err]) = .ok ∧
    secondVerdict ⟨BitVec.ofNat 7 127, BitVec.ofNat 9 511⟩ (booting 0 [.ok, .err]) = .err := by decide

theorem witness_CtrlWriteTraceIsFrameOrPrefix :
    ((∃ t, exec (.ctrlWrite 127 511) (booting 0 [.ok, .ok]) = .next t) ∧ busAnswer (booting 0 [.ok, .ok]) = .ok ∧
      secondVerdict ⟨BitVec.ofNat 7 127, BitVec.ofNat 9 511⟩ (booting 0 [.ok, .ok]) = .ok) ∧
    ((∃ t, exec (.ctrlWrite 127 511) (booting 0 [.err]) = .next t) ∧ busAnswer (booting 0 [.err]) = .err) ∧
    (∃ t, exec (.ctrlWrite 127 511) (booting 0 [.ok, .err]) = .next t) ∧ busAnswer (booting 0 [.ok, .err]) = .ok ∧
      secondVerdict ⟨BitVec.ofNat 7 127, BitVec.ofNat 9 511⟩ (booting 0 [.ok, .err]) = .err :=
  ⟨⟨⟨_, rfl⟩, rfl, rfl⟩, ⟨⟨_, rfl⟩, rfl⟩, ⟨_, rfl⟩, rfl, rfl⟩

/-- The first values too wide, and the widest that fit, in both modes other than `Boot`. -/
theorem witness_CtrlWriteRefusals :
    ((128 ≤ 128 ∨ 512 ≤ 0) ∧ (128 ≤ 0 ∨ 512 ≤ 512)) ∧
    (127 < 128 ∧ 511 < 512) ∧ (looping .rxPoll .leftTop .leftTop).mode ≠ .boot ∧ stuck.mode ≠ .boot := by decide

/-- The first write, the activate write's completion, the last write, and a failure at each byte. -/
theorem witness_BringupStepIssuesNextWrite :
    (booting 0 []).mode = .boot ∧
    ((booting 0 [.ok, .ok]).config.bringupSeq[(booting 0 [.ok, .ok]).bootIdx]? = some ⟨0x0F, 0x000⟩ ∧
      busAnswer (booting 0 [.ok, .ok]) = .ok ∧ secondVerdict ⟨0x0F, 0x000⟩ (booting 0 [.ok, .ok]) = .ok) ∧
    ((booting 2 [.ok, .ok]).config.bringupSeq[(booting 2 [.ok, .ok]).bootIdx]? = some ⟨0x06, 0x000⟩ ∧
      busAnswer (booting 2 [.ok, .ok]) = .ok ∧ secondVerdict ⟨0x06, 0x000⟩ (booting 2 [.ok, .ok]) = .ok) ∧
    ((booting 1 [.err]).config.bringupSeq[(booting 1 [.err]).bootIdx]? = some ⟨0x09, 0x001⟩ ∧
      busAnswer (booting 1 [.err]) = .err) ∧
    (booting 1 [.ok, .err]).config.bringupSeq[(booting 1 [.ok, .err]).bootIdx]? = some ⟨0x09, 0x001⟩ ∧
      busAnswer (booting 1 [.ok, .err]) = .ok ∧ secondVerdict ⟨0x09, 0x001⟩ (booting 1 [.ok, .err]) = .err := by decide

theorem witness_BringupPastListFaults : (booting 3 []).config.nBringup ≤ (booting 3 []).bootIdx := by decide

/-- The whole list, at its first and at its last count of steps. -/
theorem witness_BringupReplaysTheWholeList :
    cfg.wf = true ∧ 0 < cfg.nBringup ∧
    (∀ b ∈ (Env.mk [] [] [] [.ok, .ok, .ok, .ok, .ok, .ok, .err] [false]).resets, b = false) ∧
    (Env.mk [] [] [] [.ok, .ok, .ok, .ok, .ok, .ok, .err] [false]).busVerdicts =
      List.replicate (2 * cfg.nBringup) .ok ++ [.err] ∧
    0 ≤ cfg.nBringup ∧ 3 ≤ cfg.nBringup := by decide

/-- V-B5: the very last byte of the list fails. -/
theorem witness_BringupFailureIsFatal :
    (booting 2 [.ok, .err]).config.wf = true ∧ (booting 2 [.ok, .err]).quiet ∧ (booting 2 [.ok, .err]).selfDriven ∧
    (booting 2 [.ok, .err]).mode = .boot ∧ (booting 2 [.ok, .err]).codecState ≠ .active ∧
    ∃ t, step (booting 2 [.ok, .err]) = .next t ∧ t.mode = .halted :=
  ⟨rfl, quiet_of_none rfl, rfl, rfl, by decide, _, rfl, rfl⟩

/-- The widest word of the port. -/
theorem witness_RxDataReadConsumesOneWord :
    (answered .rxService .leftTop .leftTop [] [0xFFFF, 0x0001] []).env.rxWords = 0xFFFF :: [0x0001] ∧
    0xFFFF < 2 ^ (answered .rxService .leftTop .leftTop [] [0xFFFF, 0x0001] []).config.wordBits := by decide

/-- The cursor at both ends of the array. -/
theorem witness_RxLtStoresIntoTop :
    ((looping .rxService .leftTop .leftTop).mode = .run ∧ (looping .rxService .leftTop .leftTop).schedPc = .rxService ∧
      (looping .rxService .leftTop .leftTop).rxPhase = .leftTop) ∧
    ∀ w ∈ [0, 3], ({ looping .rxService .leftTop .leftTop with wc := w } : State).wc <
      ({ looping .rxService .leftTop .leftTop with wc := w } : State).config.bufLen := by decide

theorem witness_RxLbStoresIntoBotAndAdvances :
    ((looping .rxService .leftBot .leftTop).mode = .run ∧ (looping .rxService .leftBot .leftTop).schedPc = .rxService ∧
      (looping .rxService .leftBot .leftTop).rxPhase = .leftBot) ∧
    ∀ w ∈ [0, 3], ({ looping .rxService .leftBot .leftTop with wc := w } : State).wc <
      ({ looping .rxService .leftBot .leftTop with wc := w } : State).config.bufLen := by decide

theorem witness_RightChannelWordsAreDiscarded :
    ((looping .rxService .rightTop .leftTop).mode = .run ∧
      (looping .rxService .rightTop .leftTop).schedPc = .rxService ∧
      (looping .rxService .rightTop .leftTop).rxPhase = .rightTop) ∧
    (looping .rxService .rightBot .leftTop).mode = .run ∧
      (looping .rxService .rightBot .leftTop).schedPc = .rxService ∧
      (looping .rxService .rightBot .leftTop).rxPhase = .rightBot := by decide

theorem witness_RightChannelWordHasNoEffect :
    ∀ i ∈ [Instr.rxRt, Instr.rxRb],
      (after (exec i (answered .rxService .rightTop .leftTop [] [0x7777] [])) fun t => t.mode) = some .run ∧
      (after (exec i (answered .rxService .rightTop .leftTop [] [0x0000] [])) fun t => t.mode) = some .run := by decide

theorem witness_CursorOutsideArraysFaults :
    ({ looping .rxService .leftTop .leftTop with wc := 4 } : State).config.bufLen ≤
      ({ looping .rxService .leftTop .leftTop with wc := 4 } : State).wc ∧
    ({ looping .txService .leftTop .leftTop with rc := 4 } : State).config.bufLen ≤
      ({ looping .txService .leftTop .leftTop with rc := 4 } : State).rc := by decide

theorem witness_TxLtSendsTop :
    ((looping .txService .leftTop .leftTop).mode = .run ∧ (looping .txService .leftTop .leftTop).schedPc = .txService ∧
      (looping .txService .leftTop .leftTop).txPhase = .leftTop) ∧
    ∀ r ∈ [0, 3], ({ looping .txService .leftTop .leftTop with rc := r } : State).rc <
      ({ looping .txService .leftTop .leftTop with rc := r } : State).config.bufLen := by decide

theorem witness_TxLbSendsBotAndAdvances :
    ((looping .txService .leftTop .leftBot).mode = .run ∧ (looping .txService .leftTop .leftBot).schedPc = .txService ∧
      (looping .txService .leftTop .leftBot).txPhase = .leftBot) ∧
    ∀ r ∈ [0, 3], ({ looping .txService .leftTop .leftBot with rc := r } : State).rc <
      ({ looping .txService .leftTop .leftBot with rc := r } : State).config.bufLen := by decide

theorem witness_RightChannelIsSilent :
    ((looping .txService .leftTop .rightTop).mode = .run ∧
      (looping .txService .leftTop .rightTop).schedPc = .txService ∧
      (looping .txService .leftTop .rightTop).txPhase = .rightTop) ∧
    (looping .txService .leftTop .rightBot).mode = .run ∧
      (looping .txService .leftTop .rightBot).schedPc = .txService ∧
      (looping .txService .leftTop .rightBot).txPhase = .rightBot := by decide

/-- Both flags, with and without `ready`. -/
theorem witness_RxPollDecides :
    (looping .rxPoll .leftTop .leftTop).mode = .run ∧ (looping .rxPoll .leftTop .leftTop).schedPc = .rxPoll ∧
    ∀ r ∈ [false, true],
      (rxStatusAnswer (answered .rxPoll .leftTop .leftTop [⟨r, false⟩] [] [])).ovr = false ∧
      (rxStatusAnswer (answered .rxPoll .leftTop .leftTop [⟨r, true⟩] [] [])).ovr = true := by decide

theorem witness_TxPollDecides :
    (looping .txPoll .leftTop .leftTop).mode = .run ∧ (looping .txPoll .leftTop .leftTop).schedPc = .txPoll ∧
    ∀ r ∈ [false, true],
      (txStatusAnswer (answered .txPoll .leftTop .leftTop [] [] [⟨r, false⟩])).udr = false ∧
      (txStatusAnswer (answered .txPoll .leftTop .leftTop [] [] [⟨r, true⟩])).udr = true := by decide

/-- At the loop's start with a word waiting on each side, the write cursor at the array's last cell. -/
def bothReady : State :=
  { answered .rxPoll .leftBot .leftTop [⟨true, false⟩] [0x0A] [⟨true, false⟩] with wc := 3 }

theorem witness_SchedStepCompletes :
    bothReady.mode = .run ∧ bothReady.schedPc = .rxPoll ∧ bothReady.wc < bothReady.config.bufLen ∧
    bothReady.rc < bothReady.config.bufLen ∧ (rxStatusAnswer bothReady).ovr = false ∧
    (∀ d, txStatusAnswer { bothReady with draws := d } = ⟨true, false⟩) ∧ (⟨true, false⟩ : TxStatus).udr = false :=
  ⟨rfl, rfl, by decide, by decide, rfl, fun _ => rfl, rfl⟩

theorem witness_SchedStepIsOneIteration :
    (looping .rxPoll .rightBot .leftBot).config.wf = true ∧ (looping .rxPoll .rightBot .leftBot).quiet ∧
    (looping .rxPoll .rightBot .leftBot).selfDriven ∧ (looping .rxPoll .rightBot .leftBot).mode = .run ∧
    (looping .rxPoll .rightBot .leftBot).schedPc = .rxPoll ∧
    (looping .rxPoll .rightBot .leftBot).wc < (looping .rxPoll .rightBot .leftBot).config.bufLen ∧
    (looping .rxPoll .rightBot .leftBot).rc < (looping .rxPoll .rightBot .leftBot).config.bufLen :=
  ⟨rfl, quiet_of_none rfl, rfl, rfl, rfl, by decide, by decide⟩

theorem witness_SchedStepNeedsLoopStart :
    ∀ s ∈ [State.reset, stuck, looping .txPoll .leftTop .leftTop], ¬ (s.mode = .run ∧ s.schedPc = .rxPoll) := by decide

theorem witness_OverrunIsFoundFirst :
    (answered .rxPoll .leftTop .leftTop [⟨true, true⟩] [] [⟨true, true⟩]).mode = .run ∧
    (answered .rxPoll .leftTop .leftTop [⟨true, true⟩] [] [⟨true, true⟩]).schedPc = .rxPoll ∧
    (rxStatusAnswer (answered .rxPoll .leftTop .leftTop [⟨true, true⟩] [] [⟨true, true⟩])).ovr = true := by decide

theorem witness_OverrunStopsTheBlock :
    (answered .rxPoll .rightTop .leftBot [⟨true, true⟩] [] []).config.wf = true ∧
    (answered .rxPoll .rightTop .leftBot [⟨true, true⟩] [] []).quiet ∧
    (answered .rxPoll .rightTop .leftBot [⟨true, true⟩] [] []).selfDriven ∧
    (answered .rxPoll .rightTop .leftBot [⟨true, true⟩] [] []).mode = .run ∧
    (answered .rxPoll .rightTop .leftBot [⟨true, true⟩] [] []).schedPc = .rxPoll ∧
    (rxStatusAnswer (answered .rxPoll .rightTop .leftBot [⟨true, true⟩] [] [])).ovr = true :=
  ⟨rfl, quiet_of_none rfl, rfl, rfl, rfl, rfl⟩

theorem witness_HaltKeyAloneHalts :
    (booting 0 []).mode = .boot ∧ (looping .rxPoll .leftTop .leftTop).mode = .run := by decide

theorem witness_HaltEntersHalted : ∀ r, FatalCause.overrun ≠ .busFault r := fun _ => FatalCause.noConfusion

/-! ### States in the middle of a stream -/

/-- The transmit side is owed its first word: nothing has moved yet. -/
def firstOut : State :=
  { looping .txService .leftTop .leftTop with trace := [.txStatusRead ⟨true, false⟩] }

/-- Five words received and one frame's top word sent: the transmit side is owed the bottom word. -/
def midStream : State :=
  { looping .txService .leftBot .leftBot with
    wc := 1
    nrx := 1
    mem := ⟨[(0, 10), (1, 20)], [(0, 11)]⟩
    trace := [.rxStatusRead ⟨true, false⟩, .rxDataRead 10, .rxStatusRead ⟨true, false⟩, .rxDataRead 11,
      .rxStatusRead ⟨true, false⟩, .rxDataRead 0x7777, .rxStatusRead ⟨true, false⟩, .rxDataRead 0x7777,
      .rxStatusRead ⟨true, false⟩, .rxDataRead 20,
      .txStatusRead ⟨true, false⟩, .txDataWrite 0, .txStatusRead ⟨true, false⟩] }

/-- As `midStream`, before the top word was sent. -/
def midStreamTop : State :=
  { midStream with
    txPhase := .leftTop
    trace := [.rxStatusRead ⟨true, false⟩, .rxDataRead 10, .rxStatusRead ⟨true, false⟩, .rxDataRead 11,
      .rxStatusRead ⟨true, false⟩, .rxDataRead 0x7777, .rxStatusRead ⟨true, false⟩, .rxDataRead 0x7777,
      .rxStatusRead ⟨true, false⟩, .rxDataRead 20, .txStatusRead ⟨true, false⟩] }

theorem booting_inv : (booting 2 [.ok, .ok]).Inv where
  config_wf := by decide
  list_nonempty := by decide
  wc_law := by decide
  rc_law := by decide
  mem_wf := by decide
  top_inside _ _ := rfl
  bot_inside _ _ := rfl
  cells_fit n _ := by cases n <;> exact Nat.two_pow_pos _
  moved_fit := by decide
  halt_recorded := by decide
  boot_in_list := by decide
  boot_le := by decide
  run_after_bringup := by decide
  codec_law := by decide
  cs_high := by decide

theorem firstOut_inv : firstOut.Inv where
  config_wf := by decide
  list_nonempty := by decide
  wc_law := by decide
  rc_law := by decide
  mem_wf := by decide
  top_inside _ _ := rfl
  bot_inside _ _ := rfl
  cells_fit n _ := by cases n <;> exact Nat.two_pow_pos _
  moved_fit := by decide
  halt_recorded := by decide
  boot_in_list := by decide
  boot_le := by decide
  run_after_bringup := by decide
  codec_law := by decide
  cs_high := by decide

theorem midStream_inv : midStream.Inv where
  config_wf := by decide
  list_nonempty := by decide
  wc_law := by decide
  rc_law := by decide
  mem_wf := by decide
  top_inside i hi := by
    have hi' : 4 ≤ i := hi
    show cellRead i [(0, 10), (1, 20)] = _
    rw [cellRead_cons, if_neg (by omega), cellRead_cons, if_neg (by omega)]
    rfl
  bot_inside i hi := by
    have hi' : 4 ≤ i := hi
    show cellRead i [(0, 11)] = _
    rw [cellRead_cons, if_neg (by omega)]
    rfl
  cells_fit n i := by
    cases n
    · show cellRead i [(0, 10), (1, 20)] < 2 ^ 16
      rw [cellRead_cons, cellRead_cons]
      split
      · decide
      · split
        · decide
        · exact Nat.two_pow_pos _
    · show cellRead i [(0, 11)] < 2 ^ 16
      rw [cellRead_cons]
      split
      · decide
      · exact Nat.two_pow_pos _
  moved_fit := by decide
  halt_recorded := by decide
  boot_in_list := by decide
  boot_le := by decide
  run_after_bringup := by decide
  codec_law := by decide
  cs_high := by decide

theorem midStreamTop_inv : midStreamTop.Inv where
  config_wf := by decide
  list_nonempty := by decide
  wc_law := by decide
  rc_law := by decide
  mem_wf := by decide
  top_inside := midStream_inv.top_inside
  bot_inside := midStream_inv.bot_inside
  cells_fit := midStream_inv.cells_fit
  moved_fit := by decide
  halt_recorded := by decide
  boot_in_list := by decide
  boot_le := by decide
  run_after_bringup := by decide
  codec_law := by decide
  cs_high := by decide

theorem firstOut_stream : firstOut.StreamLaw := ⟨by decide, by decide, by decide, by decide, by decide, by decide⟩
theorem midStream_stream : midStream.StreamLaw := ⟨by decide, by decide, by decide, by decide, by decide, by decide⟩
theorem midStreamTop_stream : midStreamTop.StreamLaw :=
  ⟨by decide, by decide, by decide, by decide, by decide, by decide⟩

theorem midStream_pulse : midStream.PulseLaw := ⟨by decide, by decide, by decide⟩

theorem midStream_delayed : midStream.Delayed where
  top_out j h := by
    have h' : 4 * j < 1 := h
    obtain rfl : j = 0 := by omega
    rfl
  top_received j h := by
    have h' : 4 * j < 1 := h
    obtain rfl : j = 0 := by omega
    decide
  bot_out j h := by
    have h' : 4 * j + 1 < 1 := h
    omega
  bot_received j h := by
    have h' : 4 * j + 1 < 1 := h
    omega
  silence j := ⟨rfl, rfl⟩

theorem midStreamTop_delayed : midStreamTop.Delayed where
  top_out _ h := absurd h (Nat.not_lt_zero _)
  top_received _ h := absurd h (Nat.not_lt_zero _)
  bot_out _ h := absurd h (Nat.not_lt_zero _)
  bot_received _ h := absurd h (Nat.not_lt_zero _)
  silence _ := ⟨rfl, rfl⟩

theorem witness_StepKeepsPulseLaw :
    midStream.PulseLaw ∧ midStream.selfDriven ∧ ∃ t, step midStream = .next t := ⟨midStream_pulse, rfl, _, rfl⟩

theorem witness_StepKeepsInvariant :
    (booting 2 [.ok, .ok]).Inv ∧ (∃ t, step (booting 2 [.ok, .ok]) = .next t) ∧
    midStream.Inv ∧ ∃ t, step midStream = .next t := ⟨booting_inv, ⟨_, rfl⟩, midStream_inv, _, rfl⟩

theorem witness_ResetMeetsInvariant : cfg.wf = true ∧ 0 < cfg.nBringup := by decide

/-- A reset out of `Halted`, and a step in `Run`. -/
theorem witness_ModeMovesOnlyForward :
    ((∃ t, step { stuck with env := ⟨[], [], [], [], [true]⟩ } = .next t) ∧ stuck.mode = .halted) ∧
    (∃ t, step midStream = .next t) ∧ resetNow midStream = false ∧ midStream.mode = .run :=
  ⟨⟨⟨_, rfl⟩, rfl⟩, ⟨_, rfl⟩, rfl, rfl⟩

theorem witness_HaltCauseIsWrittenOnce :
    midStream.Inv ∧ resetNow midStream = false ∧ ∃ t, step midStream = .next t := ⟨midStream_inv, rfl, _, rfl⟩

theorem witness_CodecStateIsMonotonic :
    ((booting 2 [.ok, .ok]).Inv ∧ resetNow (booting 2 [.ok, .ok]) = false ∧
      ∃ t, step (booting 2 [.ok, .ok]) = .next t) ∧
    (Instr.txRt ≠ .bringupStep ∧ ∃ t, exec .txRt midStream = .next t) ∧
    ∃ t, step { stuck with env := ⟨[], [], [], [], [true]⟩ } = .next t :=
  ⟨⟨booting_inv, rfl, _, rfl⟩, ⟨by decide, _, rfl⟩, _, rfl⟩

theorem witness_ControlBusIsUsedOnlyInBoot :
    (midStream.running ∧ midStream.selfDriven ∧ (∃ t, step midStream = .next t) ∧ midStream.mode = .run) ∧
    (booting 2 [.ok, .ok]).running ∧ (booting 2 [.ok, .ok]).selfDriven ∧
    (∃ t, step (booting 2 [.ok, .ok]) = .next t) ∧ (booting 2 [.ok, .ok]).mode = .boot :=
  ⟨⟨⟨rfl, rfl⟩, rfl, ⟨_, rfl⟩, rfl⟩, ⟨rfl, rfl⟩, rfl, ⟨_, rfl⟩, rfl⟩

theorem witness_BufferIsWrittenOnlyByRx :
    (∃ t, exec .rxLb midStream = .next t) ∧ Instr.rxLb ≠ .schedStep ∧ Instr.rxLb ≠ .rxLt ∧
    (∃ t, exec .rxLt midStream = .next t) ∧ Instr.rxLt ≠ .schedStep ∧ Instr.rxLt ≠ .rxLb :=
  ⟨⟨_, rfl⟩, by decide, by decide, ⟨_, rfl⟩, by decide, by decide⟩

/-- The last cursor value of the smallest buffer, and the last index. -/
theorem witness_CursorVisitsEveryIndexOnce : (1 < 2 ∧ 0 < 2) ∧ 1 < 2 := by decide

/-- No step, and one step, from a state in the middle of a stream; and equal frame counts. -/
theorem witness_CursorTrailFollowsFrameCounts :
    (midStream.Inv ∧ (∃ t, Host.Core.run Sys2Proof.core 0 midStream = .next t) ∧
      ∃ t, Host.Core.run Sys2Proof.core 1 midStream = .next t) ∧
    firstOut.Inv ∧ ∃ t, Host.Core.run Sys2Proof.core 1 firstOut = .next t ∧ t.nrx = t.ntx :=
  ⟨⟨midStream_inv, ⟨_, rfl⟩, _, rfl⟩, firstOut_inv, _, rfl, rfl⟩

theorem witness_StepKeepsStreamLaw :
    midStream.Inv ∧ midStream.StreamLaw ∧ midStream.selfDriven ∧ ∃ t, step midStream = .next t :=
  ⟨midStream_inv, midStream_stream, rfl, _, rfl⟩

/-- Both left phases; for the top word the drift stands at the window's upper end. The last clause at `j = DELAY`. -/
theorem witness_TxFrameSendsLatestStored :
    (midStreamTop.Inv ∧ midStreamTop.StreamLaw ∧ midStreamTop.txPhase = .leftTop ∧
      inWindow midStreamTop.config (topFrames (rxWordsOf midStreamTop.trace).length) midStreamTop.ntx) ∧
    (midStream.Inv ∧ midStream.StreamLaw ∧ midStream.txPhase = .leftBot ∧
      inWindow midStream.config (botFrames (rxWordsOf midStream.trace).length) midStream.ntx) ∧
    midStream.config.delay ≤ 2 :=
  ⟨⟨midStreamTop_inv, midStreamTop_stream, rfl, by decide, by decide⟩,
    ⟨midStream_inv, midStream_stream, rfl, by decide, by decide⟩, by decide⟩

theorem witness_StepKeepsDelayedOutputs :
    (midStream.Inv ∧ midStream.StreamLaw ∧ midStream.Delayed ∧ midStream.selfDriven ∧ midStream.driftInWindow ∧
      ∃ t, step midStream = .next t) ∧
    midStreamTop.Inv ∧ midStreamTop.StreamLaw ∧ midStreamTop.Delayed ∧ midStreamTop.selfDriven ∧
    midStreamTop.driftInWindow ∧ ∃ t, step midStreamTop = .next t :=
  ⟨⟨midStream_inv, midStream_stream, midStream_delayed, rfl,
      ⟨fun _ h => absurd h (by decide), fun _ _ => ⟨by decide, by decide⟩⟩, _, rfl⟩,
    midStreamTop_inv, midStreamTop_stream, midStreamTop_delayed, rfl,
    ⟨fun _ _ => ⟨by decide, by decide⟩, fun _ h => absurd h (by decide)⟩, _, rfl⟩

theorem witness_TwoUnreadWordsOverrun :
    (Closed.mk (looping .rxPoll .leftTop .leftTop) (streamReset cfg 0 0)).block.running ∧
    (Closed.mk (looping .rxPoll .leftTop .leftTop) (streamReset cfg 0 0)).block.selfDriven ∧
    (Closed.mk (looping .rxPoll .leftTop .leftTop) (streamReset cfg 0 0)).block.mode = .run ∧
    (Closed.mk (looping .rxPoll .leftTop .leftTop) (streamReset cfg 0 0)).block.schedPc = .rxPoll :=
  ⟨⟨rfl, rfl⟩, rfl, rfl, rfl⟩

end Sys2Proof.Tests
end

section
/-!
SUPPORT. The configuration checks (spec/00_scope.md R9, R10, R109, R261): which bring-up lists and which written
configurations they admit, and that a configuration that is not well formed has no run.
-/

namespace Sys2Proof

/-! ## Bring-up operands -/

/-- A codec register write as the pair of numbers a written configuration lists for it. -/
def ControlRegister.operands (w : ControlRegister) : Nat × Nat := (w.address.toNat, w.value.toNat)

theorem ControlRegister.operands_fit (w : ControlRegister) : w.operands.1 < 128 ∧ w.operands.2 < 512 :=
  ⟨w.address.isLt, w.value.isLt⟩

theorem ControlRegister.operands_ofNat {a v : Nat} (ha : a < 128) (hv : v < 512) :
    (ControlRegister.mk (BitVec.ofNat 7 a) (BitVec.ofNat 9 v)).operands = (a, v) := by
  simp [operands, Nat.mod_eq_of_lt ha, Nat.mod_eq_of_lt hv]

theorem ControlRegister.ofNat_operands (w : ControlRegister) :
    ControlRegister.mk (BitVec.ofNat 7 w.operands.1) (BitVec.ofNat 9 w.operands.2) = w := by
  simp [operands]

/-! ## The check of the list -/

theorem acceptSeq_cons_of_ok {a v : Nat} {rest : List (Nat × Nat)} {rs : List ControlRegister}
    (hfit : a < 128 ∧ v < 512) (hrest : acceptSeq rest = .ok rs) :
    acceptSeq ((a, v) :: rest) = .ok (⟨BitVec.ofNat 7 a, BitVec.ofNat 9 v⟩ :: rs) := by
  rw [acceptSeq, if_pos hfit, hrest]

/-- What an admitted nonempty list can be: its head fits, its tail is admitted, and nothing is truncated. -/
theorem acceptSeq_cons_eq_ok {a v : Nat} {rest : List (Nat × Nat)} {ws : List ControlRegister}
    (h : acceptSeq ((a, v) :: rest) = .ok ws) :
    (a < 128 ∧ v < 512) ∧ ∃ rs, acceptSeq rest = .ok rs ∧
      ws = ⟨BitVec.ofNat 7 a, BitVec.ofNat 9 v⟩ :: rs := by
  rw [acceptSeq] at h
  split at h
  next hfit =>
    split at h
    next rs hrest => exact ⟨hfit, rs, hrest, by cases h; rfl⟩
    next => cases h
  next => cases h

theorem acceptSeq_map_operands (ws : List ControlRegister) :
    acceptSeq (ws.map ControlRegister.operands) = .ok ws := by
  induction ws with
  | nil => rfl
  | cons w rest ih => rw [List.map_cons, acceptSeq_cons_of_ok w.operands_fit ih, w.ofNat_operands]

theorem map_operands_of_acceptSeq {ps : List (Nat × Nat)} {ws : List ControlRegister}
    (h : acceptSeq ps = .ok ws) : ws.map ControlRegister.operands = ps := by
  induction ps generalizing ws with
  | nil => cases h; rfl
  | cons p rest ih =>
    obtain ⟨⟨ha, hv⟩, rs, hrest, rfl⟩ := acceptSeq_cons_eq_ok h
    rw [List.map_cons, ih hrest, ControlRegister.operands_ofNat ha hv]

/-- The check of the list is the inverse of writing a list of register writes down (R109). -/
theorem acceptSeq_eq_ok_iff {ps : List (Nat × Nat)} {ws : List ControlRegister} :
    acceptSeq ps = .ok ws ↔ ws.map ControlRegister.operands = ps :=
  ⟨map_operands_of_acceptSeq, fun h => h ▸ acceptSeq_map_operands ws⟩

theorem operands_fit_of_map_eq {ps : List (Nat × Nat)} {ws : List ControlRegister}
    (h : ws.map ControlRegister.operands = ps) : ∀ p ∈ ps, p.1 < 128 ∧ p.2 < 512 := by
  subst h
  exact List.forall_mem_map.mpr fun w _ => w.operands_fit

/-! ## The checks of a written configuration -/

/-- The configuration a written one stands for, once its list has been read. -/
def RawConfig.withSeq (r : RawConfig) (ws : List ControlRegister) : Config :=
  ⟨r.wordBits, r.topLen, r.delay, r.fs, ws, r.actIdx, true⟩

theorem RawConfig.eq_withSeq_iff {r : RawConfig} {ws : List ControlRegister} {c : Config} :
    c = r.withSeq ws ↔ c.wordBits = r.wordBits ∧ c.bufLen = r.topLen ∧ c.delay = r.delay ∧ c.fs = r.fs ∧
      c.bringupSeq = ws ∧ c.actIdx = r.actIdx ∧ c.clockOk = true := by
  cases c
  simp only [withSeq, Config.mk.injEq]

/-- The checks of R10, R261 and R272 that do not look at the bring-up list. -/
def RawConfig.parametersOk (r : RawConfig) : Prop :=
  r.topLen = r.botLen ∧ 2 ≤ r.topLen ∧ 1 ≤ r.delay ∧ r.delay ≤ r.topLen - 1 ∧ r.clockOk = true

theorem RawConfig.accept_of_parametersOk {r : RawConfig} {ws : List ControlRegister} (h : r.parametersOk)
    (hseq : acceptSeq r.bringupSeq = .ok ws) : r.accept = .ok (r.withSeq ws) := by
  obtain ⟨harrays, hlen, hmin, hmax, hclock⟩ := h
  rw [accept, if_neg (not_not_intro harrays), if_neg (by omega), if_neg (by omega), if_neg (by simp [hclock]), hseq]
  rfl

theorem RawConfig.accept_eq_ok {r : RawConfig} {c : Config} (h : r.accept = .ok c) :
    r.parametersOk ∧ ∃ ws, acceptSeq r.bringupSeq = .ok ws ∧ c = r.withSeq ws := by
  unfold accept at h
  split_ifs at h with harrays hlen hdelay hclock
  split at h
  next ws hseq =>
    have hok : r.parametersOk :=
      ⟨not_not.mp harrays, by omega, by omega, by omega, Bool.eq_true_of_not_eq_false hclock⟩
    exact ⟨hok, ws, hseq, by cases h; rfl⟩
  next => cases h

theorem RawConfig.accept_eq_ok_iff {r : RawConfig} {c : Config} :
    r.accept = .ok c ↔ r.parametersOk ∧ ∃ ws, acceptSeq r.bringupSeq = .ok ws ∧ c = r.withSeq ws := by
  refine ⟨accept_eq_ok, ?_⟩
  rintro ⟨hok, ws, hseq, rfl⟩
  exact accept_of_parametersOk hok hseq

/-- Settles O12: the admitted list determines and is determined by the written one (`acceptSeq_eq_ok_iff`), and the other
parameters pass through (`RawConfig.accept_eq_ok_iff`). -/
theorem checksAcceptExactlyWellFormed : Obligations.ChecksAcceptExactlyWellFormed := by
  intro r c
  rw [RawConfig.accept_eq_ok_iff]
  constructor
  · rintro ⟨⟨harrays, hlen, hmin, hmax, hclock⟩, ws, hseq, hc⟩
    obtain ⟨hbits, hbuf, hdelay, hfs, rfl, hact, hok⟩ := RawConfig.eq_withSeq_iff.mp hc
    have hmap := acceptSeq_eq_ok_iff.mp hseq
    exact ⟨harrays, hlen, hmin, hmax, hclock, operands_fit_of_map_eq hmap, hbits, hbuf, hdelay, hfs, hact, hok, hmap⟩
  · rintro ⟨harrays, hlen, hmin, hmax, hclock, -, hbits, hbuf, hdelay, hfs, hact, hok, hmap⟩
    exact ⟨⟨harrays, hlen, hmin, hmax, hclock⟩, c.bringupSeq, acceptSeq_eq_ok_iff.mpr hmap,
      RawConfig.eq_withSeq_iff.mpr ⟨hbits, hbuf, hdelay, hfs, rfl, hact, hok⟩⟩

/-! ## No run without a well-formed configuration -/

theorem Config.wf_iff {c : Config} :
    c.wf = true ↔ 2 ≤ c.bufLen ∧ 1 ≤ c.delay ∧ c.delay ≤ c.bufLen - 1 ∧ c.clockOk = true := by
  simp only [wf, Bool.and_eq_true, decide_eq_true_eq, and_assoc]

end Sys2Proof

namespace Sys2Proof.Machine

theorem step_of_not_wf {s : State} (h : ¬ s.config.wf = true) : step s = .refused .configNotWellFormed := if_neg h

/-- Settles O11: the three conditions are the well-formedness `step` asks for first (`Config.wf_iff`). -/
theorem illFormedConfigurationNeverRuns : Obligations.IllFormedConfigurationNeverRuns := by
  intro s hbad
  have hwf : ¬ s.config.wf = true := fun h => hbad (Config.wf_iff.mp h)
  exact step_of_not_wf hwf

end Sys2Proof.Machine
end

section
/-!
SUPPORT. What an operation can do, said once (spec/40 to spec/45, spec/60). `Effect s i t` lists the next states of a
single operation, each with the guard of its branch; `PerformedWhen` says where the block performs an operation (R105,
R137, R235, R266). A step is the reset event or a chain of `Move`s, which are effects in their place (`step_moves`).
The invariants are proved over `Effect` and `Move`, not over `exec` or `step`.
-/

namespace Sys2Proof.Machine

/-! ## Where an operation is performed -/

/-- The control state in which the block performs an operation: where `next_op` selects it (R105), and for those it
never selects where their rules put them (R137, R235, R266). -/
def PerformedWhen (i : Instr) (s : State) : Prop :=
  match i with
  | .ctrlWrite _ _ => s.mode = .boot
  | .reserved0001 => False
  | .bringupStep => s.mode = .boot
  | .reserved0011 => False
  | .rxLt => s.mode = .run ∧ s.schedPc = .rxService ∧ s.rxPhase = .leftTop
  | .rxLb => s.mode = .run ∧ s.schedPc = .rxService ∧ s.rxPhase = .leftBot
  | .rxRt => s.mode = .run ∧ s.schedPc = .rxService ∧ s.rxPhase = .rightTop
  | .rxRb => s.mode = .run ∧ s.schedPc = .rxService ∧ s.rxPhase = .rightBot
  | .txLt => s.mode = .run ∧ s.schedPc = .txService ∧ s.txPhase = .leftTop
  | .txLb => s.mode = .run ∧ s.schedPc = .txService ∧ s.txPhase = .leftBot
  | .txRt => s.mode = .run ∧ s.schedPc = .txService ∧ s.txPhase = .rightTop
  | .txRb => s.mode = .run ∧ s.schedPc = .txService ∧ s.txPhase = .rightBot
  | .rxPoll => s.mode = .run ∧ s.schedPc = .rxPoll
  | .txPoll => s.mode = .run ∧ s.schedPc = .txPoll
  | .schedStep => s.mode = .run ∧ s.schedPc = .rxPoll
  | .halt cause => (s.mode = .boot ∧ ∃ r, (haltOperand cause s).1 = .busFault r) ∨
      (s.mode = .run ∧ ∀ r, (haltOperand cause s).1 ≠ .busFault r)

/-- `next_op` selects no operation but one that is performed there, and never the composite or `HALT` (R105). -/
theorem performedWhen_of_nextKey {i : Instr} {s : State} (h : nextKey s = some i.key) :
    PerformedWhen i s ∧ i ≠ .schedStep ∧ ∀ c, i ≠ .halt c := by
  cases hm : s.mode with
  | halted => simp [nextKey, hm] at h
  | boot => cases i <;> simp_all [nextKey, Instr.key, PerformedWhen]
  | run =>
    cases hpc : s.schedPc with
    | rxPoll => cases i <;> simp_all [nextKey, Instr.key, PerformedWhen]
    | txPoll => cases i <;> simp_all [nextKey, Instr.key, PerformedWhen]
    | rxService =>
      cases hp : s.rxPhase <;> cases i <;> simp_all [nextKey, Instr.key, PerformedWhen, ChannelPhase.code]
    | txService =>
      cases hp : s.txPhase <;> cases i <;> simp_all [nextKey, Instr.key, PerformedWhen, ChannelPhase.code]

/-- A `HALT`'s cause is one that is found in the mode (R266), whether it was presented or is free. -/
theorem performedWhen_halt {cause : Option FatalCause} {s : State} (hp : placed (.halt cause) s = true)
    (hm : s.mode ≠ .halted) : PerformedWhen (.halt cause) s := by
  match cause with
  | some (.busFault r) => exact .inl ⟨by simpa [placed] using hp, r, rfl⟩
  | some .overrun => exact .inr ⟨by simpa [placed] using hp, fun _ => FatalCause.noConfusion⟩
  | some .underrun => exact .inr ⟨by simpa [placed] using hp, fun _ => FatalCause.noConfusion⟩
  | none =>
    cases hmode : s.mode with
    | halted => exact absurd hmode hm
    | boot => exact .inl ⟨hmode, Config.freeBusFault s.draws, by simp [haltOperand, hmode]⟩
    | run =>
      refine .inr ⟨hmode, fun r => ?_⟩
      cases hf : Config.freeOverrun s.draws <;> simp [haltOperand, hmode, hf]

/-! ## Frames on the bus -/

/-- Both bytes pass: the five events of R136, and `cs_n` is deasserted again. -/
def FramePasses (r : ControlRegister) (s t : State) : Prop :=
  ∃ d, t = { s with
    csN := true
    trace := s.trace ++ frameEvents r
    env := { s.env with busVerdicts := s.env.busVerdicts.tail.tail }
    draws := d }

/-- A byte fails (R134): the block halts with the write and the byte recorded, after the first of the frame's events. -/
def FrameFails (r : ControlRegister) (s t : State) : Prop :=
  ∃ (byte : Fin 2) (level : Bool) (d : Nat), t = { s with
    mode := .halted
    haltCause := some (.busFault ⟨r.address, r.value, byte⟩)
    csN := level
    trace := s.trace ++ (frameEvents r).take (byte.val + 2)
    env := { s.env with busVerdicts := s.env.busVerdicts.drop (byte.val + 1) }
    draws := d }

theorem sendFrame_outcome (r : ControlRegister) (s : State) :
    ((sendFrame r s).1 = .ok ∧ FramePasses r s (sendFrame r s).2) ∨
    ((sendFrame r s).1 = .err ∧ FrameFails r s (sendFrame r s).2) := by
  obtain ⟨-, h⟩ | ⟨-, -, h⟩ | ⟨-, -, h⟩ := sendFrame_cases r s
  · exact .inr (h ▸ ⟨rfl, 0, _, _, by simp [raiseHalt, busXfer, csSet, frameEvents]; exact ⟨rfl, rfl⟩⟩)
  · have htail : s.env.busVerdicts.tail.tail = s.env.busVerdicts.drop 2 := by
      rw [← List.drop_one, ← List.drop_one, List.drop_drop]
    exact .inr (h ▸ ⟨rfl, 1, _, _, by simp [raiseHalt, busXfer, csSet, frameEvents, htail]; exact ⟨rfl, rfl⟩⟩)
  · exact .inl (h ▸ ⟨rfl, _, by simp [csHold, busXfer, csSet, frameEvents]; rfl⟩)

theorem frameEvents_isControl (r : ControlRegister) : ∀ e ∈ frameEvents r, e.isControl = true := by
  simp [frameEvents, Event.isControl]

/-! ## The effects -/

/-- What one operation can do to the state: every next state of `exec`, `SCHED_STEP`'s chain aside. -/
inductive Effect (s : State) : Instr → State → Prop
  | ctrlWritePasses (a v : Nat) (t : State) (hm : s.mode = .boot)
      (hf : FramePasses ⟨BitVec.ofNat 7 a, BitVec.ofNat 9 v⟩ s t) : Effect s (.ctrlWrite a v) t
  | ctrlWriteFails (a v : Nat) (t : State) (hm : s.mode = .boot)
      (hf : FrameFails ⟨BitVec.ofNat 7 a, BitVec.ofNat 9 v⟩ s t) : Effect s (.ctrlWrite a v) t
  | bringupPasses (r : ControlRegister) (t : State) (hr : bringupOperand s = some r) (hf : FramePasses r s t) :
      Effect s .bringupStep (bringupAdvance t)
  | bringupFails (r : ControlRegister) (t : State) (hr : bringupOperand s = some r) (hf : FrameFails r s t) :
      Effect s .bringupStep t
  | rxLt (hw : s.wc < s.config.bufLen) :
      Effect s .rxLt { rxDataRead s with
        mem := s.mem.write .top s.wc (rxWordAnswer s), rxPhase := .leftBot, schedPc := .txPoll }
  | rxLb (hw : s.wc < s.config.bufLen) :
      Effect s .rxLb { rxDataRead s with
        mem := s.mem.write .bot s.wc (rxWordAnswer s)
        wc := adv s.config.bufLen s.wc, nrx := s.nrx + 1, rxPhase := .rightTop, schedPc := .txPoll }
  | rxRt : Effect s .rxRt { rxDataRead s with rxPhase := .rightBot, schedPc := .txPoll }
  | rxRb : Effect s .rxRb { rxDataRead s with rxPhase := .leftTop, schedPc := .txPoll }
  | txLt (hr : s.rc < s.config.bufLen) :
      Effect s .txLt { txDataWrite (s.mem.read .top s.rc) s with txPhase := .leftBot, schedPc := .rxPoll }
  | txLb (hr : s.rc < s.config.bufLen) :
      Effect s .txLb { txDataWrite (s.mem.read .bot s.rc) s with
        rc := adv s.config.bufLen s.rc, ntx := s.ntx + 1, txPhase := .rightTop, schedPc := .rxPoll }
  | txRt : Effect s .txRt { txDataWrite 0 s with txPhase := .rightBot, schedPc := .rxPoll }
  | txRb : Effect s .txRb { txDataWrite 0 s with txPhase := .leftTop, schedPc := .rxPoll }
  | rxOverrun (hv : rxVerdict (rxStatusAnswer s) = .fault) :
      Effect s .rxPoll (raiseHalt .overrun (rxStatusRead s))
  | rxReady (hv : rxVerdict (rxStatusAnswer s) = .service) :
      Effect s .rxPoll { rxStatusRead s with schedPc := .rxService }
  | rxIdle (hv : rxVerdict (rxStatusAnswer s) = .idle) :
      Effect s .rxPoll { rxStatusRead s with schedPc := .txPoll }
  | txUnderrun (hv : txVerdict (txStatusAnswer s) = .fault) :
      Effect s .txPoll (raiseHalt .underrun (txStatusRead s))
  | txReady (hv : txVerdict (txStatusAnswer s) = .service) :
      Effect s .txPoll { txStatusRead s with schedPc := .txService }
  | txIdle (hv : txVerdict (txStatusAnswer s) = .idle) :
      Effect s .txPoll { txStatusRead s with schedPc := .rxPoll }
  | halt (cause : Option FatalCause) (d : Nat) :
      Effect s (.halt cause) (raiseHalt (haltOperand cause s).1 { s with draws := d })

theorem effect_of_execCtrlWrite {a v : Nat} {s t : State} (h : execCtrlWrite a v s = .next t) :
    Effect s (.ctrlWrite a v) t := by
  unfold execCtrlWrite at h
  split_ifs at h with hfit hm
  cases h
  obtain ⟨-, hf⟩ | ⟨-, hf⟩ := sendFrame_outcome ⟨BitVec.ofNat 7 a, BitVec.ofNat 9 v⟩ s
  · exact .ctrlWritePasses a v _ hm hf
  · exact .ctrlWriteFails a v _ hm hf

theorem effect_of_execBringupStep {s t : State} (h : execBringupStep s = .next t) : Effect s .bringupStep t := by
  unfold execBringupStep at h
  split at h
  next => cases h
  next r hr =>
    have hout := sendFrame_outcome r s
    generalize sendFrame r s = p at h hout
    obtain ⟨v, u⟩ := p
    cases v with
    | ok => cases h; exact .bringupPasses r u hr (by simpa using hout)
    | err => cases h; exact .bringupFails r u hr (by simpa using hout)

theorem effect_of_execRxLt {s t : State} (h : execRxLt s = .next t) : Effect s .rxLt t := by
  obtain ⟨u, hu, ht⟩ := andThen_eq_next h
  obtain ⟨hw, rfl⟩ := bufWrite_eq_next hu
  cases ht
  exact .rxLt hw

theorem effect_of_execRxLb {s t : State} (h : execRxLb s = .next t) : Effect s .rxLb t := by
  obtain ⟨u, hu, ht⟩ := andThen_eq_next h
  obtain ⟨hw, rfl⟩ := bufWrite_eq_next hu
  cases ht
  exact .rxLb hw

theorem effect_of_execTxLt {s t : State} (h : execTxLt s = .next t) : Effect s .txLt t := by
  obtain ⟨hr, ht⟩ := bufRead_eq_next h
  cases ht
  exact .txLt hr

theorem effect_of_execTxLb {s t : State} (h : execTxLb s = .next t) : Effect s .txLb t := by
  obtain ⟨hr, ht⟩ := bufRead_eq_next h
  cases ht
  exact .txLb hr

theorem effect_of_execRxPoll {s t : State} (h : execRxPoll s = .next t) : Effect s .rxPoll t := by
  unfold execRxPoll at h
  split at h
  next hv => cases h; exact .rxOverrun hv
  next hv => cases h; exact .rxReady hv
  next hv => cases h; exact .rxIdle hv

theorem effect_of_execTxPoll {s t : State} (h : execTxPoll s = .next t) : Effect s .txPoll t := by
  unfold execTxPoll at h
  split at h
  next hv => cases h; exact .txUnderrun hv
  next hv => cases h; exact .txReady hv
  next hv => cases h; exact .txIdle hv

theorem effect_of_execHalt {cause : Option FatalCause} {s t : State} (h : execHalt cause s = .next t) :
    Effect s (.halt cause) t := by
  cases h
  cases cause with
  | some c => exact .halt (some c) s.draws
  | none => exact .halt none (s.draws + 1)

/-- Every next state of an operation other than the composite is one of its effects. -/
theorem effect_of_exec {i : Instr} {s t : State} (h : exec i s = .next t) (hi : i ≠ .schedStep) : Effect s i t := by
  cases i with
  | ctrlWrite a v => exact effect_of_execCtrlWrite h
  | reserved0001 => cases h
  | bringupStep => exact effect_of_execBringupStep h
  | reserved0011 => cases h
  | rxLt => exact effect_of_execRxLt h
  | rxLb => exact effect_of_execRxLb h
  | rxRt => cases h; exact .rxRt
  | rxRb => cases h; exact .rxRb
  | txLt => exact effect_of_execTxLt h
  | txLb => exact effect_of_execTxLb h
  | txRt => cases h; exact .txRt
  | txRb => cases h; exact .txRb
  | rxPoll => exact effect_of_execRxPoll h
  | txPoll => exact effect_of_execTxPoll h
  | schedStep => exact absurd rfl hi
  | halt cause => exact effect_of_execHalt h

/-- An operation that a step performs is performed in its place. -/
theorem performedWhen_of_placed {i : Instr} {s t : State} (hp : placed i s = true) (hm : s.mode ≠ .halted)
    (he : Effect s i t) : PerformedWhen i s := by
  cases he with
  | ctrlWritePasses _ _ _ hboot => exact hboot
  | ctrlWriteFails _ _ _ hboot => exact hboot
  | halt cause => exact performedWhen_halt hp hm
  | _ => exact (performedWhen_of_nextKey (by simpa [placed] using hp)).1

/-! ## Moves, and what a step is made of -/

/-- One operation, performed in its place. -/
def Move (s t : State) : Prop := ∃ i, PerformedWhen i s ∧ Effect s i t

/-- Operations performed one after another. -/
abbrev Moves : State → State → Prop := Relation.ReflTransGen Move

theorem move_of_rxService {s t : State} (hm : s.mode = .run) (hpc : s.schedPc = .rxService)
    (h : rxService s = .next t) : Move s t ∧ t.mode = .run ∧ t.schedPc = .txPoll := by
  unfold rxService at h
  split at h
  next hp =>
    have he := effect_of_execRxLt h
    exact ⟨⟨.rxLt, ⟨hm, hpc, hp⟩, he⟩, by cases he; exact ⟨hm, rfl⟩⟩
  next hp =>
    have he := effect_of_execRxLb h
    exact ⟨⟨.rxLb, ⟨hm, hpc, hp⟩, he⟩, by cases he; exact ⟨hm, rfl⟩⟩
  next hp => cases h; exact ⟨⟨.rxRt, ⟨hm, hpc, hp⟩, .rxRt⟩, hm, rfl⟩
  next hp => cases h; exact ⟨⟨.rxRb, ⟨hm, hpc, hp⟩, .rxRb⟩, hm, rfl⟩

theorem move_of_txService {s t : State} (hm : s.mode = .run) (hpc : s.schedPc = .txService)
    (h : txService s = .next t) : Move s t := by
  unfold txService at h
  split at h
  next hp => exact ⟨.txLt, ⟨hm, hpc, hp⟩, effect_of_execTxLt h⟩
  next hp => exact ⟨.txLb, ⟨hm, hpc, hp⟩, effect_of_execTxLb h⟩
  next hp => cases h; exact ⟨.txRt, ⟨hm, hpc, hp⟩, .txRt⟩
  next hp => cases h; exact ⟨.txRb, ⟨hm, hpc, hp⟩, .txRb⟩

theorem Effect.after_rxPoll {s u : State} (he : Effect s .rxPoll u) (hm : s.mode = .run) :
    u.mode = .halted ∨ (u.mode = .run ∧ (u.schedPc = .rxService ∨ u.schedPc = .txPoll)) := by
  cases he <;> simp [hm]

theorem Effect.after_txPoll {s u : State} (he : Effect s .txPoll u) (hm : s.mode = .run) :
    u.mode = .halted ∨ u.mode = .run := by
  cases he <;> simp [hm]

theorem moves_of_txHalf {s t : State} (hm : s.mode = .run) (hpc : s.schedPc = .txPoll) (h : txHalf s = .next t) :
    Moves s t := by
  obtain ⟨u, hu, ht⟩ := andThen_eq_next h
  have he := effect_of_execTxPoll hu
  have hpoll : Move s u := ⟨.txPoll, ⟨hm, hpc⟩, he⟩
  obtain hh | hm' := he.after_txPoll hm
  · simp only [hh] at ht
    cases ht
    exact .single hpoll
  · simp only [hm'] at ht
    split at ht
    next => contradiction
    next hpc' _ => exact .head hpoll (.single (move_of_txService hm' hpc' ht))
    next => cases ht; exact .single hpoll

/-- `SCHED_STEP` is a chain of the operations it is composed of, each in its place (R235). -/
theorem moves_of_execSchedStep {s t : State} (h : execSchedStep s = .next t) :
    s.mode = .run ∧ s.schedPc = .rxPoll ∧ Moves s t := by
  unfold execSchedStep at h
  split at h
  next hm hpc =>
    refine ⟨hm, hpc, ?_⟩
    obtain ⟨u, hu, ht⟩ := andThen_eq_next h
    have he := effect_of_execRxPoll hu
    have hpoll : Move s u := ⟨.rxPoll, ⟨hm, hpc⟩, he⟩
    obtain hh | ⟨hm', hpc' | hpc'⟩ := he.after_rxPoll hm
    · simp only [hh] at ht
      cases ht
      exact .single hpoll
    · simp only [hm', hpc'] at ht
      obtain ⟨u', hu', ht'⟩ := andThen_eq_next ht
      obtain ⟨hserve, hm'', hpc''⟩ := move_of_rxService hm' hpc' hu'
      exact .head hpoll (.head hserve (moves_of_txHalf hm'' hpc'' ht'))
    · simp only [hm', hpc'] at ht
      exact .head hpoll (moves_of_txHalf hm' hpc' ht)
  next => cases h

/-- What `exec` answers in a state where the block performs the operation: one move, or the composite's chain. -/
theorem moves_of_exec {i : Instr} {s t : State} (hp : placed i s = true) (hm : s.mode ≠ .halted)
    (h : exec i s = .next t) : (i ≠ .schedStep ∧ Move s t) ∨ (i = .schedStep ∧ s.mode = .run ∧ Moves s t) := by
  by_cases hi : i = .schedStep
  · subst hi
    obtain ⟨hrun, -, hmoves⟩ := moves_of_execSchedStep h
    exact .inr ⟨rfl, hrun, hmoves⟩
  · have he := effect_of_exec h hi
    exact .inl ⟨hi, i, performedWhen_of_placed hp hm he, he⟩

/-! ## Steps -/

/-- The state an operation starts from in a step: the reset source's entry and the presented bytes are taken. -/
def State.taken (s : State) (rest : List Byte) : State := { resetPassed s with harness := rest }

@[simp] theorem placed_taken (i : Instr) (s : State) (rest : List Byte) : placed i (s.taken rest) = placed i s := rfl

/-- The key `next_op` gives is, as a byte on its own, the operation it stands for. -/
theorem decode_keyByte_of_nextKey {s : State} {k : BitVec 4} (h : nextKey s = some k) :
    ∃ i : Instr, i.key = k ∧ decode [keyByte k] = .ok (i, []) := by
  unfold nextKey at h
  split at h
  next => cases h
  next => cases h; exact ⟨.bringupStep, rfl, rfl⟩
  next =>
    split at h <;> cases h
    next => exact ⟨.rxPoll, rfl, rfl⟩
    next =>
      cases s.rxPhase
      exacts [⟨.rxLt, rfl, rfl⟩, ⟨.rxLb, rfl, rfl⟩, ⟨.rxRt, rfl, rfl⟩, ⟨.rxRb, rfl, rfl⟩]
    next => exact ⟨.txPoll, rfl, rfl⟩
    next =>
      cases s.txPhase
      exacts [⟨.txLt, rfl, rfl⟩, ⟨.txLb, rfl, rfl⟩, ⟨.txRt, rfl, rfl⟩, ⟨.txRb, rfl, rfl⟩]

/-- What a step of a block left to itself decodes is what `next_op` selects, with nothing after it (R105). -/
theorem decode_operationBytes_selfDriven {s : State} {bs rest : List Byte} {i : Instr} (hs : s.selfDriven)
    (hb : operationBytes s = some bs) (hd : decode bs = .ok (i, rest)) : nextKey s = some i.key ∧ rest = [] := by
  rw [operationBytes_selfDriven hs, Option.map_eq_some_iff] at hb
  obtain ⟨k, hk, rfl⟩ := hb
  obtain ⟨j, rfl, hj⟩ := decode_keyByte_of_nextKey hk
  rw [hj] at hd
  cases hd
  exact ⟨hk, rfl⟩

/-- Everything a step that answers a next state can be: the reset event, or an operation of `exec` where the block
performs it, the one `next_op` selects if nothing was presented. -/
theorem step_eq_next {s t : State} (h : step s = .next t) :
    s.config.wf = true ∧ ((resetNow s = true ∧ t = takeReset s) ∨
      (resetNow s = false ∧ s.mode ≠ .halted ∧ ∃ i rest, placed i s = true ∧ exec i (s.taken rest) = .next t ∧
        (s.selfDriven → nextKey s = some i.key ∧ rest = []))) := by
  unfold step at h
  split_ifs at h with hwf hreset
  · cases h
    exact ⟨hwf, .inl ⟨hreset, rfl⟩⟩
  · refine ⟨hwf, .inr ⟨Bool.eq_false_of_not_eq_true hreset, ?_⟩⟩
    split at h
    next => cases h
    next bs hbs =>
      have hm : s.mode ≠ .halted := fun hm => by simp [operationBytes, nextKey_eq_none.mpr hm] at hbs
      split at h
      next => cases h
      next i rest hdec =>
        split_ifs at h with hp
        exact ⟨hm, i, rest, hp, h, fun hs => decode_operationBytes_selfDriven hs hbs hdec⟩

/-- A step that is no reset, as the operations it performs: one move, or in `Run` the composite's chain of moves. -/
theorem step_moves {s t : State} (h : step s = .next t) (hr : resetNow s = false) :
    s.mode ≠ .halted ∧ ∃ rest, (s.selfDriven → rest = []) ∧
      (Move (s.taken rest) t ∨ (s.mode = .run ∧ Moves (s.taken rest) t)) := by
  obtain ⟨-, ⟨hr', -⟩ | ⟨-, hm, i, rest, hp, he, hself⟩⟩ := step_eq_next h
  · simp [hr] at hr'
  · refine ⟨hm, rest, fun hs => (hself hs).2, ?_⟩
    obtain ⟨-, hmove⟩ | ⟨-, hrun, hmoves⟩ := moves_of_exec (s := s.taken rest) hp hm he
    · exact .inl hmove
    · exact .inr ⟨hrun, hmoves⟩

/-- The induction over what a step is made of: what the reset event, taking the presented bytes and every move keep,
every step keeps. -/
theorem step_keeps {P : State → Prop} (hreset : ∀ s, s.config.wf = true → P s → P (takeReset s))
    (htaken : ∀ s rest, P s → P (s.taken rest)) (hmove : ∀ s t, P s → Move s t → P t)
    {s t : State} (hs : P s) (h : step s = .next t) : P t := by
  obtain ⟨hwf, ⟨-, rfl⟩ | ⟨hr, -⟩⟩ := step_eq_next h
  · exact hreset s hwf hs
  · obtain ⟨-, rest, -, hone | ⟨-, hmany⟩⟩ := step_moves h hr
    · exact hmove _ t (htaken s rest hs) hone
    · exact hmany.rec (htaken s rest hs) fun _ hm ih => hmove _ _ ih hm

end Sys2Proof.Machine
end

section
/-!
SUPPORT. The invariants every step keeps: the words and licences in a trace, what each effect leaves unchanged, the one
word per ready pulse (spec/45_scheduler.md R237), and the block's invariant (spec/10_state.md R32 to R44, R79, R80).
-/

namespace Sys2Proof.Machine

/-! ## The words and the licences of a trace -/

@[simp] theorem rxWordsOf_append (es fs : List Event) : rxWordsOf (es ++ fs) = rxWordsOf es ++ rxWordsOf fs := by
  induction es with
  | nil => rfl
  | cons e es ih => cases e <;> simp [rxWordsOf, ih]

@[simp] theorem txWordsOf_append (es fs : List Event) : txWordsOf (es ++ fs) = txWordsOf es ++ txWordsOf fs := by
  induction es with
  | nil => rfl
  | cons e es ih => cases e <;> simp [txWordsOf, ih]

@[simp] theorem rxWordsOf_rxDataRead (w : Word) : rxWordsOf [.rxDataRead w] = [w] := rfl
@[simp] theorem rxWordsOf_rxStatusRead (st : RxStatus) : rxWordsOf [.rxStatusRead st] = [] := rfl
@[simp] theorem rxWordsOf_txStatusRead (st : TxStatus) : rxWordsOf [.txStatusRead st] = [] := rfl
@[simp] theorem rxWordsOf_txDataWrite (w : Word) : rxWordsOf [.txDataWrite w] = [] := rfl
@[simp] theorem txWordsOf_rxDataRead (w : Word) : txWordsOf [.rxDataRead w] = [] := rfl
@[simp] theorem txWordsOf_rxStatusRead (st : RxStatus) : txWordsOf [.rxStatusRead st] = [] := rfl
@[simp] theorem txWordsOf_txStatusRead (st : TxStatus) : txWordsOf [.txStatusRead st] = [] := rfl
@[simp] theorem txWordsOf_txDataWrite (w : Word) : txWordsOf [.txDataWrite w] = [w] := rfl

/-- A control-bus access moves no word and licenses none. -/
theorem words_of_isControl {es : List Event} (h : ∀ e ∈ es, e.isControl = true) :
    rxWordsOf es = [] ∧ txWordsOf es = [] ∧ es.countP Event.licensesRx = 0 ∧ es.countP Event.licensesTx = 0 := by
  induction es with
  | nil => exact ⟨rfl, rfl, rfl, rfl⟩
  | cons e es ih =>
    obtain ⟨he, hes⟩ := List.forall_mem_cons.mp h
    obtain ⟨hrx, htx, hlr, hlt⟩ := ih hes
    cases e with
    | csSet | busXfer | csHold => exact ⟨hrx, htx, hlr, hlt⟩
    | _ => cases he

/-- The first events of a frame, or all of them (R136). -/
theorem take_frameEvents_isControl (r : ControlRegister) (n : Nat) :
    ∀ e ∈ (frameEvents r).take n, e.isControl = true :=
  fun e he => frameEvents_isControl r e (List.mem_of_mem_take he)

/-- A receive status licenses a word exactly when the poll goes on to service it (R232). -/
theorem licensesRx_rxStatusRead (st : RxStatus) :
    (Event.rxStatusRead st).licensesRx = true ↔ rxVerdict st = .service := by
  cases st with | mk ready ovr => cases ready <;> cases ovr <;> simp [rxVerdict, Event.licensesRx]

/-- A transmit status licenses a word exactly when the poll goes on to service it (R234). -/
theorem licensesTx_txStatusRead (st : TxStatus) :
    (Event.txStatusRead st).licensesTx = true ↔ txVerdict st = .service := by
  cases st with | mk ready udr => cases ready <;> cases udr <;> simp [txVerdict, Event.licensesTx]

/-! ## What the effects leave unchanged -/

theorem FramePasses.config {r : ControlRegister} {s t : State} (h : FramePasses r s t) : t.config = s.config := by
  obtain ⟨d, rfl⟩ := h
  rfl

theorem FrameFails.config {r : ControlRegister} {s t : State} (h : FrameFails r s t) : t.config = s.config := by
  obtain ⟨byte, level, d, rfl⟩ := h
  rfl

@[simp] theorem bringupAdvance_config (s : State) : (bringupAdvance s).config = s.config := by
  rw [bringupAdvance_eq]

@[simp] theorem bringupAdvance_trace (s : State) : (bringupAdvance s).trace = s.trace := by
  rw [bringupAdvance_eq]

@[simp] theorem bringupAdvance_harness (s : State) : (bringupAdvance s).harness = s.harness := by
  rw [bringupAdvance_eq]

@[simp] theorem bringupAdvance_mem (s : State) : (bringupAdvance s).mem = s.mem := by
  rw [bringupAdvance_eq]

/-- No operation writes a parameter (R48). -/
theorem Effect.config {s t : State} {i : Instr} (h : Effect s i t) : t.config = s.config := by
  cases h with
  | ctrlWritePasses _ _ _ _ hf => exact hf.config
  | ctrlWriteFails _ _ _ _ hf => exact hf.config
  | bringupPasses _ _ _ hf => rw [bringupAdvance_config, hf.config]
  | bringupFails _ _ _ hf => exact hf.config
  | halt => simp
  | _ => rfl

/-- No operation presents one (R108): what a harness has left is left. -/
theorem Effect.harness {s t : State} {i : Instr} (h : Effect s i t) : t.harness = s.harness := by
  cases h with
  | ctrlWritePasses _ _ _ _ hf => obtain ⟨d, rfl⟩ := hf; rfl
  | ctrlWriteFails _ _ _ _ hf => obtain ⟨byte, level, d, rfl⟩ := hf; rfl
  | bringupPasses _ _ _ hf => obtain ⟨d, rfl⟩ := hf; simp
  | bringupFails _ _ _ hf => obtain ⟨byte, level, d, rfl⟩ := hf; rfl
  | halt => simp
  | _ => rfl

/-- Settles O13: neither the reset event nor any operation writes a parameter. -/
theorem parametersNeverChange : Obligations.ParametersNeverChange := by
  intro s t h
  exact step_keeps (P := fun u => u.config = s.config) (fun u _ hu => hu) (fun u _ hu => hu)
    (fun u v hu ⟨_, _, he⟩ => he.config.trans hu) rfl h

/-- A block left to itself stays so. -/
theorem step_keeps_selfDriven {s t : State} (hs : s.selfDriven) (h : step s = .next t) : t.selfDriven := by
  obtain ⟨-, ⟨-, rfl⟩ | ⟨hr, -⟩⟩ := step_eq_next h
  · rfl
  · have hmove : ∀ u v : State, u.selfDriven → Move u v → v.selfDriven := fun _ _ hu ⟨_, _, he⟩ => he.harness.trans hu
    obtain ⟨-, rest, hrest, hone | ⟨-, hmany⟩⟩ := step_moves h hr
    · exact hmove (s.taken rest) t (hrest hs) hone
    · exact hmany.rec (hrest hs) fun _ hm ih => hmove _ _ ih hm

/-! ## One word per ready pulse -/

/-- A move that records the events `es` keeps the pulse law if licences and words balance over `es` and the two service
positions. -/
theorem State.PulseLaw.append {s t : State} (h : s.PulseLaw) {es : List Event} (htrace : t.trace = s.trace ++ es)
    (hrx : es.countP Event.licensesRx + (if s.schedPc = .rxService then 1 else 0) =
      (rxWordsOf es).length + (if t.schedPc = .rxService then 1 else 0))
    (htx : es.countP Event.licensesTx + (if s.schedPc = .txService then 1 else 0) =
      (txWordsOf es).length + (if t.schedPc = .txService then 1 else 0))
    (hboot : t.mode = .boot → t.schedPc = .rxPoll) : t.PulseLaw where
  rx_owed := by
    have := h.rx_owed
    rw [htrace, List.countP_append, rxWordsOf_append, List.length_append]
    omega
  tx_owed := by
    have := h.tx_owed
    rw [htrace, List.countP_append, txWordsOf_append, List.length_append]
    omega
  boot_idle := hboot

/-- Control-bus accesses owe nothing, so a move that makes only those and leaves the loop where it is keeps the law. -/
theorem State.PulseLaw.control {s t : State} (h : s.PulseLaw) {es : List Event} (htrace : t.trace = s.trace ++ es)
    (hes : ∀ e ∈ es, e.isControl = true) (hpc : t.schedPc = s.schedPc) (hboot : t.mode = .boot → s.mode = .boot) :
    t.PulseLaw := by
  obtain ⟨hrx, htx, hlr, hlt⟩ := words_of_isControl hes
  exact h.append htrace (by simp [hrx, hlr, hpc]) (by simp [htx, hlt, hpc]) fun hm => hpc ▸ h.boot_idle (hboot hm)

theorem FramePasses.pulseLaw {r : ControlRegister} {s t : State} (hf : FramePasses r s t) (h : s.PulseLaw) :
    t.PulseLaw := by
  obtain ⟨d, rfl⟩ := hf
  exact h.control rfl (frameEvents_isControl r) rfl id

theorem FrameFails.pulseLaw {r : ControlRegister} {s t : State} (hf : FrameFails r s t) (h : s.PulseLaw) :
    t.PulseLaw := by
  obtain ⟨byte, level, d, rfl⟩ := hf
  exact h.control rfl (take_frameEvents_isControl r _) rfl Mode.noConfusion

/-- `RX_SERVICE` pays the word its poll licensed. -/
theorem State.PulseLaw.receive {s t : State} (h : s.PulseLaw) (hpc : s.schedPc = .rxService) {w : Word}
    (htrace : t.trace = s.trace ++ [.rxDataRead w]) (hpc' : t.schedPc = .txPoll) (hm : t.mode = .run) : t.PulseLaw :=
  h.append htrace (by simp [hpc, hpc', Event.licensesRx]) (by simp [hpc, hpc', Event.licensesTx]) (by simp [hm])

/-- `TX_SERVICE` pays the word its poll licensed. -/
theorem State.PulseLaw.transmit {s t : State} (h : s.PulseLaw) (hpc : s.schedPc = .txService) {w : Word}
    (htrace : t.trace = s.trace ++ [.txDataWrite w]) (hpc' : t.schedPc = .rxPoll) (hm : t.mode = .run) : t.PulseLaw :=
  h.append htrace (by simp [hpc, hpc', Event.licensesRx]) (by simp [hpc, hpc', Event.licensesTx]) (by simp [hm])

/-- `RX_POLL` goes to `RX_SERVICE` exactly on a status that licenses a word. -/
theorem State.PulseLaw.pollRx {s t : State} (h : s.PulseLaw) (hpc : s.schedPc = .rxPoll) {st : RxStatus}
    (htrace : t.trace = s.trace ++ [.rxStatusRead st]) (hpc' : t.schedPc = .rxService ↔ rxVerdict st = .service)
    (htx : t.schedPc ≠ .txService) (hm : t.mode ≠ .boot) : t.PulseLaw :=
  h.append htrace (by simp [hpc, hpc', List.countP_cons, licensesRx_rxStatusRead])
    (by simp [hpc, htx, Event.licensesTx]) fun hboot => absurd hboot hm

/-- `TX_POLL` goes to `TX_SERVICE` exactly on a status that licenses a word. -/
theorem State.PulseLaw.pollTx {s t : State} (h : s.PulseLaw) (hpc : s.schedPc = .txPoll) {st : TxStatus}
    (htrace : t.trace = s.trace ++ [.txStatusRead st]) (hpc' : t.schedPc = .txService ↔ txVerdict st = .service)
    (hrx : t.schedPc ≠ .rxService) (hm : t.mode ≠ .boot) : t.PulseLaw :=
  h.append htrace (by simp [hpc, hrx, Event.licensesRx])
    (by simp [hpc, hpc', List.countP_cons, licensesTx_txStatusRead]) fun hboot => absurd hboot hm

/-- The loop starts at `RX_POLL` when bring-up ends (R154), where it stood already. -/
theorem State.PulseLaw.advance {s : State} (h : s.PulseLaw) (hm : s.mode = .boot) :
    (bringupAdvance s).PulseLaw := by
  have hpc : (bringupAdvance s).schedPc = s.schedPc := by simp [bringupAdvance_eq, h.boot_idle hm]
  exact h.control (es := []) (by simp) (by simp) hpc fun _ => hm

theorem Move.pulseLaw {s t : State} (h : s.PulseLaw) (hmove : Move s t) : t.PulseLaw := by
  obtain ⟨i, hg, he⟩ := hmove
  cases he with
  | ctrlWritePasses _ _ _ _ hf => exact hf.pulseLaw h
  | ctrlWriteFails _ _ _ _ hf => exact hf.pulseLaw h
  | bringupPasses _ u _ hf =>
    have hm : u.mode = .boot := by obtain ⟨d, rfl⟩ := hf; exact hg
    exact (hf.pulseLaw h).advance hm
  | bringupFails _ _ _ hf => exact hf.pulseLaw h
  | rxLt => obtain ⟨hm, hpc, -⟩ := hg; exact h.receive hpc rfl rfl hm
  | rxLb => obtain ⟨hm, hpc, -⟩ := hg; exact h.receive hpc rfl rfl hm
  | rxRt => obtain ⟨hm, hpc, -⟩ := hg; exact h.receive hpc rfl rfl hm
  | rxRb => obtain ⟨hm, hpc, -⟩ := hg; exact h.receive hpc rfl rfl hm
  | txLt => obtain ⟨hm, hpc, -⟩ := hg; exact h.transmit hpc rfl rfl hm
  | txLb => obtain ⟨hm, hpc, -⟩ := hg; exact h.transmit hpc rfl rfl hm
  | txRt => obtain ⟨hm, hpc, -⟩ := hg; exact h.transmit hpc rfl rfl hm
  | txRb => obtain ⟨hm, hpc, -⟩ := hg; exact h.transmit hpc rfl rfl hm
  | rxOverrun hv => obtain ⟨hm, hpc⟩ := hg; exact h.pollRx hpc rfl (by simp [hpc, hv]) (by simp [hpc]) (by simp)
  | rxReady hv => obtain ⟨hm, hpc⟩ := hg; exact h.pollRx hpc rfl (by simp [hv]) (by simp) (by simp [hm])
  | rxIdle hv => obtain ⟨hm, hpc⟩ := hg; exact h.pollRx hpc rfl (by simp [hv]) (by simp) (by simp [hm])
  | txUnderrun hv => obtain ⟨hm, hpc⟩ := hg; exact h.pollTx hpc rfl (by simp [hpc, hv]) (by simp [hpc]) (by simp)
  | txReady hv => obtain ⟨hm, hpc⟩ := hg; exact h.pollTx hpc rfl (by simp [hv]) (by simp) (by simp [hm])
  | txIdle hv => obtain ⟨hm, hpc⟩ := hg; exact h.pollTx hpc rfl (by simp [hv]) (by simp) (by simp [hm])
  | halt => exact h.control (es := []) (by simp) (by simp) (by simp) (by simp)

theorem pulseLaw_resetOf (c : Config) : (State.resetOf c).PulseLaw := ⟨rfl, rfl, fun _ => rfl⟩

/-- Settles O42: a reset starts the counts again, and every operation a step performs keeps them (`Move.pulseLaw`). -/
theorem stepKeepsPulseLaw : Obligations.StepKeepsPulseLaw := by
  intro s t hlaw h
  have hreset : ∀ u : State, u.config.wf = true → u.PulseLaw → (takeReset u).PulseLaw :=
    fun u _ _ => { pulseLaw_resetOf u.config with }
  have htaken : ∀ (u : State) (rest : List Byte), u.PulseLaw → (u.taken rest).PulseLaw :=
    fun u _ hu => { hu with }
  exact ⟨step_keeps hreset htaken (fun _ _ => Move.pulseLaw) hlaw h, fun hs => step_keeps_selfDriven hs h⟩

end Sys2Proof.Machine
end

section
/-!
SUPPORT. The block's invariant (spec/10_state.md R32 to R44, spec/20_memory.md R79, R80), and what it says of mode,
`halt_cause`, `codec_state`, the two buses and the arrays.
-/

namespace Sys2Proof.Machine

/-! ## The reset state (R57) -/

theorem inv_resetOf {c : Config} (hwf : c.wf = true) (hlist : 0 < c.nBringup) : (State.resetOf c).Inv := by
  obtain ⟨hlen, hmin, hmax, -⟩ := Config.wf_iff.mp hwf
  exact {
    config_wf := hwf
    list_nonempty := hlist
    wc_law := (Nat.zero_mod _).symm
    rc_law := (Nat.mod_eq_of_lt (show c.bufLen - c.delay + 0 < c.bufLen by omega)).symm
    mem_wf := rfl
    top_inside := fun _ _ => rfl
    bot_inside := fun _ _ => rfl
    cells_fit := fun n i => (Memory.read_empty n i).trans_lt (Nat.two_pow_pos _)
    moved_fit := fun _ hw => nomatch hw
    halt_recorded := by simp [State.resetOf]
    boot_in_list := fun _ => hlist
    boot_le := Nat.zero_le _
    run_after_bringup := Mode.noConfusion
    codec_law := by
      have hact : ¬ (1 ≤ c.actIdx ∧ c.actIdx ≤ 0) := by omega
      exact (show codecStateAt c 0 = .reset by rw [codecStateAt, if_neg hlist.ne, if_neg hact]).symm
    cs_high := fun _ => rfl }

theorem topFrames_zero : topFrames 0 = 0 := by decide
theorem botFrames_zero : botFrames 0 = 0 := by decide

/-- With no frame stored a cell holds its reset value (R213). -/
theorem storedWord_zero (bufLen : Nat) (ws : List Word) (off i : Nat) : storedWord bufLen ws off 0 i = 0 := rfl

theorem streamLaw_resetOf (c : Config) : (State.resetOf c).StreamLaw where
  rx_phase := rfl
  tx_phase := rfl
  rx_frames := botFrames_zero.symm
  tx_frames := botFrames_zero.symm
  top_cells i _ := by
    show 0 = storedWord c.bufLen [] 0 (topFrames 0) i
    rw [topFrames_zero, storedWord_zero]
  bot_cells i _ := by
    show 0 = storedWord c.bufLen [] 1 (botFrames 0) i
    rw [botFrames_zero, storedWord_zero]

theorem delayed_resetOf (c : Config) : (State.resetOf c).Delayed where
  top_out _ h := absurd h (Nat.not_lt_zero _)
  top_received _ h := absurd h (Nat.not_lt_zero _)
  bot_out _ h := absurd h (Nat.not_lt_zero _)
  bot_received _ h := absurd h (Nat.not_lt_zero _)
  silence _ := ⟨rfl, rfl⟩

theorem wf_canonical : Config.canonical.wf = true := by
  rw [Config.wf_iff]
  exact ⟨by decide, by decide, by decide, rfl⟩

theorem nBringup_canonical_pos : 0 < Config.canonical.nBringup := by
  simp [Config.nBringup, Config.canonical, BringupPlan.writes]

/-! ## Single pieces of the invariant -/

/-- One more write of the list, and the codec state that goes with it (R153, R154). -/
theorem codecStateAt_succ {c : Config} {b : Nat} (hb : b < c.nBringup) : codecStateAt c (b + 1) =
    if b + 1 = c.nBringup then .active else if b + 1 = c.actIdx then .configured else codecStateAt c b := by
  unfold codecStateAt
  grind

/-- A cursor that has followed `k` advances follows `k + 1` after one more (R74, R211). -/
theorem adv_mod (n k : Nat) : adv n (k % n) = (k + 1) % n := Nat.mod_add_mod k n 1

theorem words_of_take_frameEvents (s : State) (r : ControlRegister) (n : Nat) :
    rxWordsOf (s.trace ++ (frameEvents r).take n) = rxWordsOf s.trace ∧
    txWordsOf (s.trace ++ (frameEvents r).take n) = txWordsOf s.trace := by
  obtain ⟨hrx, htx, -⟩ := words_of_isControl (take_frameEvents_isControl r n)
  simp [hrx, htx]

/-! ## The invariant under each kind of effect -/

/-- Entering `Halted` keeps the invariant: what it says of `Boot` and `Run` falls away, and the cause is recorded. -/
theorem State.Inv.halted {s : State} (h : s.Inv) (cause : FatalCause) (level : Bool) {tr : List Event} (e : Env)
    (d : Nat) (hrx : rxWordsOf tr = rxWordsOf s.trace) (htx : txWordsOf tr = txWordsOf s.trace) :
    State.Inv { s with
      mode := .halted, haltCause := some cause, csN := level, trace := tr, env := e, draws := d } :=
  { h with
    moved_fit := by simpa only [hrx, htx] using h.moved_fit
    halt_recorded := by simp
    boot_in_list := Mode.noConfusion
    run_after_bringup := Mode.noConfusion
    cs_high := fun hm => absurd rfl hm }

theorem FrameFails.inv {r : ControlRegister} {s t : State} (hf : FrameFails r s t) (h : s.Inv) : t.Inv := by
  obtain ⟨byte, level, d, rfl⟩ := hf
  obtain ⟨hrx, htx⟩ := words_of_take_frameEvents s r (byte.val + 2)
  exact h.halted _ level _ d hrx htx

theorem FramePasses.inv {r : ControlRegister} {s t : State} (hf : FramePasses r s t) (h : s.Inv) : t.Inv := by
  obtain ⟨d, rfl⟩ := hf
  obtain ⟨hrx, htx⟩ := words_of_take_frameEvents s r 5
  exact { h with
    moved_fit := fun w hw => h.moved_fit w (by rwa [← hrx, ← htx])
    cs_high := fun _ => rfl }

theorem State.Inv.advance {s : State} (h : s.Inv) (hm : s.mode = .boot) : (bringupAdvance s).Inv := by
  have hlt := h.boot_in_list hm
  have hnone : s.haltCause = none := h.halt_recorded.mpr (by simp [hm])
  rw [bringupAdvance_eq]
  exact { h with
    halt_recorded := by
      simp only [hm, hnone, true_iff]
      split_ifs <;> exact Mode.noConfusion
    boot_in_list := by
      intro hboot
      by_cases hend : s.bootIdx + 1 = s.config.nBringup
      · simp [hend] at hboot
      · exact Nat.lt_of_le_of_ne hlt hend
    boot_le := hlt
    run_after_bringup := by
      intro hrun
      by_cases hend : s.bootIdx + 1 = s.config.nBringup
      · exact hend
      · simp [hend, hm] at hrun
    codec_law := by simp only [codecStateAt_succ hlt, ← h.codec_law]
    cs_high := fun _ => h.cs_high (by simp [hm]) }

/-- A word read from the stream is one of `WORD_BITS` bits. -/
theorem State.Inv.receive {s : State} (h : s.Inv) (p : ChannelPhase) (pc : SchedPc) :
    State.Inv { rxDataRead s with rxPhase := p, schedPc := pc } :=
  { h with
    moved_fit := by
      have hw := rxWordAnswer_lt s
      have := h.moved_fit
      simp only [List.mem_append] at this
      simp only [rxDataRead_trace, rxWordsOf_append, rxWordsOf_rxDataRead, txWordsOf_append, txWordsOf_rxDataRead,
        List.append_nil, List.mem_append, List.mem_singleton]
      rintro w ((hrx | rfl) | htx)
      · exact this w (.inl hrx)
      · exact hw
      · exact this w (.inr htx) }

/-- A fitting word put into a cell of the arrays leaves them canonical, inside their length and within the width. -/
theorem State.Inv.store {s : State} (h : s.Inv) (n : BufferName) {i : Nat} {w : Word} (hi : i < s.config.bufLen)
    (hw : w < 2 ^ s.config.wordBits) : State.Inv { s with mem := s.mem.write n i w } := by
  have houtside : ∀ n' j, s.config.bufLen ≤ j → s.mem.read n' j = 0 → (s.mem.write n i w).read n' j = 0 := by
    intro n' j hj h0
    rw [Memory.read_write, if_neg (by omega), h0]
  exact { h with
    mem_wf := Memory.wf_write h.mem_wf n i w
    top_inside := fun j hj => houtside .top j hj (h.top_inside j hj)
    bot_inside := fun j hj => houtside .bot j hj (h.bot_inside j hj)
    cells_fit := by
      intro n' j
      show (s.mem.write n i w).read n' j < 2 ^ s.config.wordBits
      rw [Memory.read_write]
      split_ifs
      · exact hw
      · exact h.cells_fit n' j }

/-- A fitting word sent to the stream. -/
theorem State.Inv.transmit {s : State} (h : s.Inv) {w : Word} (hw : w < 2 ^ s.config.wordBits) (p : ChannelPhase)
    (pc : SchedPc) : State.Inv { txDataWrite w s with txPhase := p, schedPc := pc } :=
  { h with
    moved_fit := by
      have := h.moved_fit
      simp only [List.mem_append] at this
      simp only [txDataWrite_trace, rxWordsOf_append, rxWordsOf_txDataWrite, txWordsOf_append, txWordsOf_txDataWrite,
        List.append_nil, List.mem_append, List.mem_singleton]
      rintro v (hrx | htx | rfl)
      · exact this v (.inl hrx)
      · exact this v (.inr htx)
      · exact hw }

/-- A status read moves no word. -/
theorem State.Inv.pollRx {s : State} (h : s.Inv) (pc : SchedPc) : State.Inv { rxStatusRead s with schedPc := pc } :=
  { h with moved_fit := by simpa using h.moved_fit }

theorem State.Inv.pollTx {s : State} (h : s.Inv) (pc : SchedPc) : State.Inv { txStatusRead s with schedPc := pc } :=
  { h with moved_fit := by simpa using h.moved_fit }

theorem State.Inv.raiseHalt {s : State} (h : s.Inv) (cause : FatalCause) : (raiseHalt cause s).Inv := by
  cases cause with
  | busFault r => exact h.halted _ _ _ _ rfl rfl
  | overrun => exact h.halted _ _ _ _ rfl rfl
  | underrun => exact h.halted _ _ _ _ rfl rfl

theorem Move.inv {s t : State} (h : s.Inv) (hmove : Move s t) : t.Inv := by
  obtain ⟨i, hg, he⟩ := hmove
  cases he with
  | ctrlWritePasses _ _ _ _ hf => exact hf.inv h
  | ctrlWriteFails _ _ _ _ hf => exact hf.inv h
  | bringupPasses _ u _ hf =>
    have hm : u.mode = .boot := by obtain ⟨d, rfl⟩ := hf; exact hg
    exact (hf.inv h).advance hm
  | bringupFails _ _ _ hf => exact hf.inv h
  | rxLt hw => exact (h.receive .leftBot .txPoll).store .top hw (rxWordAnswer_lt s)
  | rxLb hw =>
    exact { (h.receive .rightTop .txPoll).store .bot hw (rxWordAnswer_lt s) with
      wc_law := by simp only [h.wc_law, adv_mod]; rfl }
  | rxRt => exact h.receive .rightBot .txPoll
  | rxRb => exact h.receive .leftTop .txPoll
  | txLt => exact h.transmit (h.cells_fit _ _) .leftBot .rxPoll
  | txLb =>
    exact { h.transmit (h.cells_fit _ _) .rightTop .rxPoll with
      rc_law := by simp only [h.rc_law, adv_mod]; rfl }
  | txRt => exact h.transmit (Nat.two_pow_pos _) .rightBot .rxPoll
  | txRb => exact h.transmit (Nat.two_pow_pos _) .leftTop .rxPoll
  | rxOverrun => exact (h.pollRx s.schedPc).raiseHalt .overrun
  | rxReady => exact h.pollRx .rxService
  | rxIdle => exact h.pollRx .txPoll
  | txUnderrun => exact (h.pollTx s.schedPc).raiseHalt .underrun
  | txReady => exact h.pollTx .txService
  | txIdle => exact h.pollTx .rxPoll
  | halt _ d =>
    have hd : State.Inv { s with draws := d } := { h with }
    exact hd.raiseHalt _

/-- Settles O45: the reset state meets the invariant, and every operation a step performs keeps it (`Move.inv`). -/
theorem stepKeepsInvariant : Obligations.StepKeepsInvariant := by
  intro s t hinv h
  have hreset : ∀ u : State, u.config.wf = true → u.Inv → (takeReset u).Inv :=
    fun u hwf hu => { inv_resetOf hwf hu.list_nonempty with }
  exact step_keeps hreset (fun u _ hu => { hu with }) (fun _ _ => Move.inv) hinv h

/-- Settles O48: a step that is no reset does not start in `Halted`, and the invariant holds before and after it. -/
theorem haltCauseIsWrittenOnce : Obligations.HaltCauseIsWrittenOnce := by
  intro s t hinv hr h
  have hm := (step_moves h hr).1
  exact ⟨hinv.halt_recorded.mpr hm, (stepKeepsInvariant s t hinv h).halt_recorded⟩

/-! ## The stream outside `Boot` -/

/-- What no move outside `Boot` goes beyond (R32, R34, R137): `Boot` is not entered, `cs_n` and `codec_state` stay, and
every access is one to the stream. -/
structure StreamOnly (s t : State) : Prop where
  mode : t.mode ≠ .boot
  csN : t.csN = s.csN
  codecState : t.codecState = s.codecState
  trace : ∃ es, t.trace = s.trace ++ es ∧ ∀ e ∈ es, e.isStream = true

theorem StreamOnly.trans {s t u : State} (h₁ : StreamOnly s t) (h₂ : StreamOnly t u) : StreamOnly s u where
  mode := h₂.mode
  csN := h₂.csN.trans h₁.csN
  codecState := h₂.codecState.trans h₁.codecState
  trace := by
    obtain ⟨es, hes, hstream⟩ := h₁.trace
    obtain ⟨fs, hfs, hstream'⟩ := h₂.trace
    exact ⟨es ++ fs, by rw [hfs, hes, List.append_assoc], List.forall_mem_append.mpr ⟨hstream, hstream'⟩⟩

/-- The fatal halt in `Run` is a stream fault, which leaves `cs_n` alone (R134, R262). -/
theorem raiseHalt_csN {cause : FatalCause} (h : ∀ r, cause ≠ .busFault r) (s : State) :
    (raiseHalt cause s).csN = s.csN := by
  cases cause with
  | busFault r => exact absurd rfl (h r)
  | overrun => rfl
  | underrun => rfl

/-- No operation but `BRINGUP_STEP` writes `codec_state` (R34). -/
theorem Effect.codecState {s t : State} {i : Instr} (h : Effect s i t) (hi : i ≠ .bringupStep) :
    t.codecState = s.codecState := by
  cases h with
  | ctrlWritePasses _ _ _ _ hf => obtain ⟨d, rfl⟩ := hf; rfl
  | ctrlWriteFails _ _ _ _ hf => obtain ⟨byte, level, d, rfl⟩ := hf; rfl
  | bringupPasses => exact absurd rfl hi
  | bringupFails => exact absurd rfl hi
  | halt => simp
  | _ => rfl

/-- In `Run` every operation but `HALT` makes exactly one access, to the stream (R52, R53, R231). -/
theorem Effect.one_access {s t : State} {i : Instr} (h : Effect s i t) (hg : PerformedWhen i s) (hm : s.mode ≠ .boot)
    (hi : ∀ c, i ≠ .halt c) : ∃ e, t.trace = s.trace ++ [e] ∧ e.isStream = true := by
  cases h with
  | ctrlWritePasses | ctrlWriteFails | bringupPasses | bringupFails => exact absurd hg hm
  | halt cause => exact absurd rfl (hi cause)
  | _ => exact ⟨_, rfl, rfl⟩

theorem Move.streamOnly {s t : State} (hm : s.mode ≠ .boot) (hmove : Move s t) : StreamOnly s t := by
  obtain ⟨i, hg, he⟩ := hmove
  by_cases hi : ∃ c, i = .halt c
  · obtain ⟨c, rfl⟩ := hi
    cases he with
    | halt _ d =>
      obtain ⟨hboot, -⟩ | ⟨-, hcause⟩ := hg
      · exact absurd hboot hm
      · exact ⟨by simp, raiseHalt_csN hcause _, by simp, [], by simp, by simp⟩
  · have hi' : ∀ c, i ≠ .halt c := fun c hc => hi ⟨c, hc⟩
    have hbring : i ≠ .bringupStep := fun h => by subst h; exact hm hg
    obtain ⟨e, htrace, hstream⟩ := he.one_access hg hm hi'
    obtain ⟨hmode, hcs⟩ : t.mode ≠ .boot ∧ t.csN = s.csN := by
      cases he with
      | ctrlWritePasses | ctrlWriteFails => exact absurd hg hm
      | bringupPasses | bringupFails => exact absurd rfl hbring
      | halt cause => exact absurd rfl (hi' cause)
      | rxOverrun | txUnderrun => exact ⟨Mode.noConfusion, rfl⟩
      | _ => exact ⟨hm, rfl⟩
    exact ⟨hmode, hcs, he.codecState hbring, [e], htrace, List.forall_mem_singleton.mpr hstream⟩

theorem Moves.streamOnly {s t : State} (hm : s.mode ≠ .boot) (h : Moves s t) : StreamOnly s t := by
  induction h with
  | refl => exact ⟨hm, rfl, rfl, [], (List.append_nil _).symm, fun _ he => nomatch he⟩
  | tail _ hmove ih => exact ih.trans (hmove.streamOnly ih.mode)

/-- A step in `Run` that is no reset. -/
theorem step_streamOnly {s t : State} (h : step s = .next t) (hr : resetNow s = false) (hm : s.mode = .run) :
    StreamOnly s t := by
  have hm' : ∀ rest, (s.taken rest).mode ≠ .boot := fun _ hb => Mode.noConfusion (hm.symm.trans hb)
  obtain ⟨-, rest, -, hmove | ⟨-, hmoves⟩⟩ := step_moves h hr
  · exact { hmove.streamOnly (hm' rest) with }
  · exact { Moves.streamOnly (hm' rest) hmoves with }

/-- Settles O47: a reset enters `Boot`, no other step starts in `Halted`, and no move outside `Boot` enters it. -/
theorem modeMovesOnlyForward : Obligations.ModeMovesOnlyForward := by
  intro s t h
  obtain ⟨-, ⟨hr, rfl⟩ | ⟨hr, hm, -⟩⟩ := step_eq_next h
  · exact ⟨fun _ => ⟨hr, rfl⟩, fun hr' => by simp [hr] at hr', fun _ => rfl⟩
  · refine ⟨fun hh => absurd hh hm, fun _ hrun => ?_, fun hr' => by simp [hr] at hr'⟩
    have hboot := (step_streamOnly h hr hrun).mode
    cases ht : t.mode with
    | boot => exact absurd ht hboot
    | run => exact .inl rfl
    | halted => exact .inr rfl

/-! ## `codec_state` -/

theorem CodecState.rank_le_two (c : CodecState) : c.rank ≤ 2 := by cases c <;> decide

/-- Before the end of the list the codec is not yet `Active` (R154). -/
theorem State.Inv.codecState_ne_active {s : State} (h : s.Inv) (hm : s.mode = .boot) : s.codecState ≠ .active := by
  have hlt := h.boot_in_list hm
  rw [h.codec_law, codecStateAt, if_neg hlt.ne]
  split_ifs <;> exact CodecState.noConfusion

theorem bringupAdvance_rank {s : State} (h : s.codecState ≠ .active) :
    s.codecState.rank ≤ (bringupAdvance s).codecState.rank := by
  rw [bringupAdvance_eq]
  show s.codecState.rank ≤ (if _ then CodecState.active else if _ then .configured else s.codecState).rank
  split_ifs
  · exact s.codecState.rank_le_two
  · cases hc : s.codecState with
    | active => exact absurd hc h
    | reset => decide
    | configured => decide
  · exact le_rfl

theorem Move.rank_le {s t : State} (h : s.Inv) (hmove : Move s t) : s.codecState.rank ≤ t.codecState.rank := by
  obtain ⟨i, hg, he⟩ := hmove
  by_cases hi : i = .bringupStep
  · subst hi
    cases he with
    | bringupPasses _ u _ hf =>
      have hc : u.codecState = s.codecState := by obtain ⟨d, rfl⟩ := hf; rfl
      rw [← hc]
      exact bringupAdvance_rank (hc ▸ h.codecState_ne_active hg)
    | bringupFails _ _ _ hf => obtain ⟨byte, level, d, rfl⟩ := hf; exact le_rfl
  · rw [he.codecState hi]

/-- Settles O49: `BRINGUP_STEP` raises `codec_state` and nothing else writes it; in `Run` it stays (`StreamOnly`). -/
theorem codecStateIsMonotonic : Obligations.CodecStateIsMonotonic := by
  refine ⟨fun s t hinv hr h => ?_, fun i s t hi h => ?_, fun s t hr h => ?_⟩
  · obtain ⟨-, rest, -, hmove | ⟨hrun, -⟩⟩ := step_moves h hr
    · have htaken : (s.taken rest).Inv := { hinv with }
      exact hmove.rank_le (s := s.taken rest) htaken
    · rw [(step_streamOnly h hr hrun).codecState]
  · by_cases hs : i = .schedStep
    · subst hs
      obtain ⟨hrun, -, hmoves⟩ := moves_of_execSchedStep h
      exact (hmoves.streamOnly (by simp [hrun])).codecState
    · exact (effect_of_exec h hs).codecState hi
  · obtain ⟨-, ⟨-, rfl⟩ | ⟨hr', -⟩⟩ := step_eq_next h
    · rfl
    · simp [hr] at hr'

/-! ## The two buses -/

/-- In `Boot` an operation makes control-bus accesses only (R105, R137). -/
theorem Move.control_of_boot {s t : State} (hm : s.mode = .boot) (hmove : Move s t) :
    ∃ es, t.trace = s.trace ++ es ∧ ∀ e ∈ es, e.isControl = true := by
  obtain ⟨i, hg, he⟩ := hmove
  have hrun : ∀ {p : Prop}, s.mode = .run ∧ p → False := fun h => Mode.noConfusion (hm.symm.trans h.1)
  cases he with
  | ctrlWritePasses _ _ _ _ hf => obtain ⟨d, rfl⟩ := hf; exact ⟨_, rfl, frameEvents_isControl _⟩
  | ctrlWriteFails _ _ _ _ hf =>
    obtain ⟨byte, level, d, rfl⟩ := hf
    exact ⟨_, rfl, take_frameEvents_isControl _ _⟩
  | bringupPasses _ _ _ hf =>
    obtain ⟨d, rfl⟩ := hf
    exact ⟨_, bringupAdvance_trace _, frameEvents_isControl _⟩
  | bringupFails _ _ _ hf =>
    obtain ⟨byte, level, d, rfl⟩ := hf
    exact ⟨_, rfl, take_frameEvents_isControl _ _⟩
  | halt => exact ⟨[], by simp, by simp⟩
  | _ => exact (hrun hg).elim

/-- A step of a block left to itself makes exactly one access in `Run` (R231). -/
theorem step_one_access {s t : State} (h : step s = .next t) (hr : resetNow s = false) (hm : s.mode = .run)
    (hs : s.selfDriven) : ∃ e, t.trace = s.trace ++ [e] := by
  obtain ⟨-, ⟨hr', -⟩ | ⟨-, -, i, rest, -, he, hself⟩⟩ := step_eq_next h
  · simp [hr] at hr'
  · obtain ⟨hkey, -⟩ := hself hs
    obtain ⟨hg, hsched, hhalt⟩ := performedWhen_of_nextKey (s := s.taken rest) hkey
    have hboot : (s.taken rest).mode ≠ .boot := fun hb => Mode.noConfusion (hm.symm.trans hb)
    obtain ⟨e, htrace, -⟩ := (effect_of_exec he hsched).one_access hg hboot hhalt
    exact ⟨e, htrace⟩

/-- Settles O50: outside `Boot` a step is `StreamOnly`, and in `Boot` it is one move with control-bus accesses only. -/
theorem controlBusIsUsedOnlyInBoot : Obligations.ControlBusIsUsedOnlyInBoot := by
  rintro s t ⟨-, hr⟩ h
  refine ⟨fun hm => ?_, fun hm => ?_⟩
  · have hstream := step_streamOnly h hr hm
    obtain ⟨es, htrace, hes⟩ := hstream.trace
    refine ⟨hstream.csN, es, htrace, hes, fun hs => ?_⟩
    obtain ⟨e, hone⟩ := step_one_access h hr hm hs
    have hes' : es = [e] := List.append_cancel_left (htrace.symm.trans hone)
    rw [hes', List.length_singleton]
  · obtain ⟨-, rest, -, hmove | ⟨hrun, -⟩⟩ := step_moves h hr
    · exact hmove.control_of_boot (s := s.taken rest) hm
    · exact Mode.noConfusion (hm.symm.trans hrun)

/-! ## The arrays -/

/-- Each array is written by one operation (R43, R71): every other leaves each of its cells as it was. -/
theorem Effect.mem_read {s t : State} {i : Instr} (h : Effect s i t) :
    (i ≠ .rxLt → ∀ j, t.mem.read .top j = s.mem.read .top j) ∧
    (i ≠ .rxLb → ∀ j, t.mem.read .bot j = s.mem.read .bot j) := by
  cases h with
  | ctrlWritePasses _ _ _ _ hf => obtain ⟨d, rfl⟩ := hf; exact ⟨fun _ _ => rfl, fun _ _ => rfl⟩
  | ctrlWriteFails _ _ _ _ hf => obtain ⟨byte, level, d, rfl⟩ := hf; exact ⟨fun _ _ => rfl, fun _ _ => rfl⟩
  | bringupPasses _ _ _ hf => obtain ⟨d, rfl⟩ := hf; simp
  | bringupFails _ _ _ hf => obtain ⟨byte, level, d, rfl⟩ := hf; exact ⟨fun _ _ => rfl, fun _ _ => rfl⟩
  | rxLt => exact ⟨fun hi => absurd rfl hi, fun _ j => by simp [Memory.read_write]⟩
  | rxLb => exact ⟨fun _ j => by simp [Memory.read_write], fun hi => absurd rfl hi⟩
  | halt => simp
  | _ => exact ⟨fun _ _ => rfl, fun _ _ => rfl⟩

/-- Settles O51: `exec` answers only effects, the composite aside. -/
theorem bufferIsWrittenOnlyByRx : Obligations.BufferIsWrittenOnlyByRx :=
  fun _ _ _ h hi => (effect_of_exec h hi).mem_read

/-! ## Reset, and single operations -/

/-- Settles O14: the reset event's next state is `takeReset`, whose fields are the reset values. -/
theorem resetEventRestoresEveryRegister : Obligations.ResetEventRestoresEveryRegister := by
  intro s hwf hr
  refine ⟨takeReset s, by rw [step, if_pos hwf, if_pos hr], ?_⟩
  simp

/-- Settles O15: the values stand in `State.resetOf`, and an empty array reads `0` in every cell. -/
theorem resetStateValues : Obligations.ResetStateValues := by
  refine ⟨rfl, fun c => ?_⟩
  have hmem : ∀ n i, (State.resetOf c).mem.read n i = 0 := Memory.read_empty
  exact ⟨rfl, rfl, rfl, rfl, rfl, rfl, rfl, rfl, rfl, hmem, rfl, rfl, rfl⟩

/-- Settles O46: `inv_resetOf`, for the defaults and for every other configuration. -/
theorem resetMeetsInvariant : Obligations.ResetMeetsInvariant :=
  ⟨inv_resetOf wf_canonical nBringup_canonical_pos, fun _ => inv_resetOf⟩

/-- Settles O56: nothing has moved yet, so every count is zero and every cell reads as never written. -/
theorem resetMeetsStreamLaws : Obligations.ResetMeetsStreamLaws :=
  fun c => ⟨streamLaw_resetOf c, pulseLaw_resetOf c, delayed_resetOf c, rfl⟩

/-- Settles O23: past the list's end there is no operand. -/
theorem bringupPastListFaults : Obligations.BringupPastListFaults := by
  intro s hpast
  have hnone : bringupOperand s = none := List.getElem?_eq_none hpast
  show execBringupStep s = _
  rw [execBringupStep, hnone]

/-- Settles O26: the word passes the port's width (`rxWordAnswer_lt`), and a word that fits passes as it is. -/
theorem rxDataReadConsumesOneWord : Obligations.RxDataReadConsumesOneWord := by
  refine fun s => ⟨rfl, rxWordAnswer_lt s, fun w rest hw => ⟨?_, fun hfit => ?_⟩⟩
  · rw [rxDataRead_draws, hw, drawsAfter]
  · rw [rxWordAnswer, hw]
    exact portWord_of_lt hfit

end Sys2Proof.Machine
end

section
/-!
SUPPORT. The delay buffer and its cursors (spec/20_memory.md R72 to R75, R79): what a cell reads after any writes, how a
cursor goes round, and that an access outside the arrays faults.
-/

namespace Sys2Proof.Machine

/-! ## The last write to a cell -/

/-- Settles O52, by induction on the last write: it either meets the cell or leaves it as the earlier writes made it
(`Memory.read_write`). -/
theorem cellReadsLastWrite : Obligations.CellReadsLastWrite := by
  intro ws n i
  induction ws using List.reverseRecOn with
  | nil => exact Memory.read_empty n i
  | append_singleton ws p ih =>
    rw [List.foldl_concat, Memory.read_write, List.reverse_concat]
    by_cases hp : p.1 = n ∧ p.2.1 = i
    · obtain ⟨rfl, rfl⟩ := hp
      simp
    · have hother : ¬ (n = p.1 ∧ i = p.2.1) := fun h => hp ⟨h.1.symm, h.2.symm⟩
      rw [if_neg hother, ih, List.find?_cons_of_neg (by simpa using hp)]

/-! ## A cursor's round -/

theorem iterate_adv {n c : Nat} (hc : c < n) (k : Nat) : (adv n)^[k] c = (c + k) % n := by
  induction k with
  | zero => exact (Nat.mod_eq_of_lt hc).symm
  | succ k ih => rw [Function.iterate_succ_apply', ih, adv_mod, Nat.add_assoc]

/-- Going on from `c` by the distance to `i`, taken round the end, arrives at `i`. -/
theorem add_distance_mod {n c i : Nat} (hc : c < n) (hi : i < n) : (c + (i + (n - c)) % n) % n = i := by
  rw [Nat.add_mod_mod, show c + (i + (n - c)) = i + n by omega, Nat.add_mod_right, Nat.mod_eq_of_lt hi]

/-- Settles O53: the distance from the start to an index, taken modulo `BUF_LEN`, is the one number of advances that
arrives there. -/
theorem cursorVisitsEveryIndexOnce : Obligations.CursorVisitsEveryIndexOnce := by
  intro L c0 hc
  refine ⟨iterate_adv hc, fun i hi => ⟨(i + (L - c0)) % L, ⟨Nat.mod_lt _ (by omega), ?_⟩, ?_⟩⟩
  · rw [iterate_adv hc, add_distance_mod hc hi]
  · rintro k ⟨hk, hvisit⟩
    rw [iterate_adv hc] at hvisit
    have hsame : c0 + k ≡ c0 + (i + (L - c0)) % L [MOD L] := hvisit.trans (add_distance_mod hc hi).symm
    exact hsame.add_left_cancel'.eq_of_lt_of_lt hk (Nat.mod_lt _ (by omega))

/-! ## A cursor outside the arrays -/

/-- A received word has no cell when the write cursor is out of range: the read from the stream moves no cursor. -/
theorem storeReceived_out {s : State} (h : ¬ s.wc < s.config.bufLen) (n : BufferName) (f : State → Result) :
    withRxOperand s (fun w s1 => andThen (bufWrite n s1.wc w s1) f) = .fault (.bufferIndex n s.wc) := by
  have hout : ¬ (rxDataRead s).wc < (rxDataRead s).config.bufLen := h
  rw [withRxOperand, bufWrite_out hout, andThen_fault]
  rfl

/-- Settles O31: both stores and both loads go through the checked buffer primitives (`storeReceived_out`,
`bufRead_out`). -/
theorem cursorOutsideArraysFaults : Obligations.CursorOutsideArraysFaults := by
  refine fun s => ⟨fun hwc => ?_, fun hrc => ?_⟩
  · have hout := hwc.not_gt
    exact ⟨storeReceived_out hout .top _, storeReceived_out hout .bot _⟩
  · have hout := hrc.not_gt
    refine ⟨?_, ?_⟩
    · show execTxLt s = _
      rw [execTxLt, bufRead_out hout]
    · show execTxLb s = _
      rw [execTxLb, bufRead_out hout]

end Sys2Proof.Machine
end

section
/-!
SUPPORT. The two encodings (spec/30_encoding.md R100 to R104, R131, R132): a frame is its address followed by its value,
and the bytes of an operation are decoded as that operation and as no other.
-/

namespace Sys2Proof

/-! ## The frame as one bit string -/

theorem frameByte0_eq_append (a : RegAddress) (v : RegValue) : frameByte0 a v = a ++ v.extractLsb' 8 1 := by
  have h := BitVec.setWidth_append_eq_shiftLeft_setWidth_or (b := a) (b' := v.extractLsb' 8 1) (w'' := 8)
  exact h.symm.trans (BitVec.setWidth_eq _)

/-- The byte boundary falls inside the value (R102), so the split of the value into its top bit and its low byte is all
that stands between the two bytes and address followed by value. -/
theorem frameOf_eq_append (a : RegAddress) (v : RegValue) : frameOf a v = a ++ v := by
  have hvalue : v.extractLsb' 8 1 ++ v.extractLsb' 0 8 = v :=
    BitVec.extractLsb'_append_extractLsb' (w := 1) (len := 8) (x := v)
  rw [frameOf, frameByte0_eq_append, frameByte1, BitVec.append_assoc, hvalue]
  rfl

theorem append_eq_shiftLeft_or (a : RegAddress) (v : RegValue) : a ++ v = (a.setWidth 16 <<< 9) ||| v.setWidth 16 := by
  have h := BitVec.setWidth_append_eq_shiftLeft_setWidth_or (b := a) (b' := v) (w'' := 16)
  exact (BitVec.setWidth_eq _).symm.trans h

@[simp] theorem frameAddress_frameOf (a : RegAddress) (v : RegValue) : frameAddress (frameOf a v) = a := by
  rw [frameOf_eq_append, frameAddress, BitVec.extractLsb'_append_eq_left]

@[simp] theorem frameValue_frameOf (a : RegAddress) (v : RegValue) : frameValue (frameOf a v) = v := by
  rw [frameOf_eq_append, frameValue, BitVec.extractLsb'_append_eq_right]

@[simp] theorem frameOf_fields (f : BitVec 16) : frameOf (frameAddress f) (frameValue f) = f := by
  rw [frameOf_eq_append]
  exact BitVec.extractLsb'_append_extractLsb' (w := 7) (len := 9) (x := f)

/-- Settles O4: the fields of a frame and the frame of two fields are inverse to each other (`frameOf_fields`,
`frameAddress_frameOf`, `frameValue_frameOf`). -/
theorem everyFrameIsOneWrite : Obligations.EveryFrameIsOneWrite := by
  refine ⟨fun a v => ⟨frameAddress_frameOf a v, frameValue_frameOf a v⟩, fun f => ⟨frameOf_fields f, rfl, rfl, ?_⟩⟩
  rintro a v rfl
  exact ⟨(frameAddress_frameOf a v).symm, (frameValue_frameOf a v).symm⟩

/-- Settles O3: byte0 is the address followed by `value[8]` (`frameByte0_eq_append`), and the word is byte0 followed by
byte1, which is the address followed by the value (`frameOf_eq_append`). -/
theorem frameIsAddressThenValue : Obligations.FrameIsAddressThenValue := by
  intro a v
  refine ⟨?_, ?_, rfl, ?_, frameAddress_frameOf a v, ?_, BitVec.extractLsb'_append_eq_right⟩
  · rw [frameByte0_eq_append, BitVec.extractLsb'_append_eq_left]
  · rw [frameByte0_eq_append, BitVec.extractLsb'_append_eq_right]
  · exact (frameOf_eq_append a v).trans (append_eq_shiftLeft_or a v)
  · show (frameOf a v).extractLsb' 8 1 = _
    rw [frameOf_eq_append, BitVec.extractLsb'_append_eq_of_add_le (by decide)]

/-! ## The bytes of a frame -/

@[simp] theorem frameByte0_append_frameByte1 (a : RegAddress) (v : RegValue) :
    frameByte0 a v ++ frameByte1 v = frameOf a v := rfl

/-- The two bytes of a word are the bytes of the frame of its fields (R103). -/
theorem frameBytes_fields (f0 f1 : Byte) :
    frameByte0 (frameAddress (f0 ++ f1)) (frameValue (f0 ++ f1)) = f0 ∧ frameByte1 (frameValue (f0 ++ f1)) = f1 := by
  have h : frameByte0 (frameAddress (f0 ++ f1)) (frameValue (f0 ++ f1)) ++ frameByte1 (frameValue (f0 ++ f1)) =
      f0 ++ f1 := frameOf_fields (f0 ++ f1)
  have hhigh := congrArg (BitVec.extractLsb' 8 8) h
  have hlow := congrArg (BitVec.extractLsb' 0 8) h
  rw [BitVec.extractLsb'_append_eq_left, BitVec.extractLsb'_append_eq_left] at hhigh
  rw [BitVec.extractLsb'_append_eq_right, BitVec.extractLsb'_append_eq_right] at hlow
  exact ⟨hhigh, hlow⟩

theorem ctrlWrite_wf_iff {a v : Nat} : (Instr.ctrlWrite a v).wf = true ↔ a < 128 ∧ v < 512 := by
  simp [Instr.wf, fitsAddress, fitsValue]

theorem decodeFrame_frameBytes {a v : Nat} (ha : a < 128) (hv : v < 512) :
    decodeFrame (frameByte0 (BitVec.ofNat 7 a) (BitVec.ofNat 9 v)) (frameByte1 (BitVec.ofNat 9 v)) =
      .ctrlWrite a v := by
  simp [decodeFrame, Nat.mod_eq_of_lt ha, Nat.mod_eq_of_lt hv]

/-- A frame decodes to a write whose operands fit, and whose frame it is (R103). -/
theorem encodeOperands_decodeFrame (f0 f1 : Byte) :
    (decodeFrame f0 f1).wf = true ∧ encodeOperands (decodeFrame f0 f1) = [f0, f1] := by
  obtain ⟨h0, h1⟩ := frameBytes_fields f0 f1
  exact ⟨ctrlWrite_wf_iff.mpr ⟨BitVec.isLt _, BitVec.isLt _⟩, by simp [decodeFrame, encodeOperands, h0, h1]⟩

/-! ## Decoding what was encoded -/

theorem decodeHalt_encodeHaltOperand (c : Option FatalCause) (rest : List Byte) :
    decodeHalt (encodeHaltOperand c ++ rest) = .ok (.halt c, rest) := by
  match c with
  | none => rfl
  | some .overrun => rfl
  | some .underrun => rfl
  | some (.busFault ⟨a, v, byte⟩) =>
    match byte with
    | 0 => simp [encodeHaltOperand, decodeHalt]
    | 1 => simp [encodeHaltOperand, decodeHalt]

/-- Settles O1: the key byte chooses the decoder of the operand bytes, which inverts their encoding
(`decodeFrame_frameBytes`, `decodeHalt_encodeHaltOperand`). -/
theorem decodeInvertsEncode : Obligations.DecodeInvertsEncode := by
  intro i rest hwf
  cases i with
  | ctrlWrite a v =>
    obtain ⟨ha, hv⟩ := ctrlWrite_wf_iff.mp hwf
    show Except.ok (decodeFrame _ _, rest) = _
    rw [decodeFrame_frameBytes ha hv]
  | halt c => exact decodeHalt_encodeHaltOperand c rest
  | _ => rfl

/-! ## Encoding what was decoded -/

theorem eq_keyByte {b : Byte} {k : BitVec 4} (h : b.toNat = k.toNat) : b = keyByte k :=
  BitVec.eq_of_toNat_eq (h.trans (by rw [keyByte, BitVec.toNat_setWidth]; omega))

theorem decodeCtrlWrite_eq_ok {bs rest : List Byte} {i : Instr} (h : decodeCtrlWrite bs = .ok (i, rest)) :
    i.key = 0b0000#4 ∧ i.wf = true ∧ bs = encodeOperands i ++ rest := by
  unfold decodeCtrlWrite at h
  split at h
  next f0 f1 _ =>
    cases h
    obtain ⟨hwf, hbytes⟩ := encodeOperands_decodeFrame f0 f1
    exact ⟨rfl, hwf, by rw [hbytes]; rfl⟩
  next => cases h

theorem decodeHalt_eq_ok {bs rest : List Byte} {i : Instr} (h : decodeHalt bs = .ok (i, rest)) :
    ∃ c, i = .halt c ∧ bs = encodeHaltOperand c ++ rest := by
  unfold decodeHalt at h
  split at h
  next c f0 f1 b _ =>
    obtain ⟨h0, h1⟩ := frameBytes_fields f0 f1
    split_ifs at h with hbus hfirst hsecond hzero hnone hover hunder
    · cases h
      exact ⟨_, rfl, by simp [encodeHaltOperand, h0, h1, hbus, hfirst]⟩
    · cases h
      exact ⟨_, rfl, by simp [encodeHaltOperand, h0, h1, hbus, hsecond]⟩
    all_goals
      obtain ⟨rfl, rfl, rfl⟩ := hzero
      cases h
    · exact ⟨none, rfl, by rw [hnone]; rfl⟩
    · exact ⟨some .overrun, rfl, by rw [hover]; rfl⟩
    · exact ⟨some .underrun, rfl, by rw [hunder]; rfl⟩
  next => cases h

/-- Settles O2: the first byte is the key of what decodes (R104), and the operand bytes are its own
(`decodeCtrlWrite_eq_ok`, `decodeHalt_eq_ok`); no other key has any. -/
theorem decodedBytesAreItsEncoding : Obligations.DecodedBytesAreItsEncoding := by
  intro bs rest i h
  cases bs with
  | nil => cases h
  | cons b bs =>
    simp only [decode] at h
    split at h
    case h_1 hb =>
      obtain ⟨hkey, hwf, rfl⟩ := decodeCtrlWrite_eq_ok h
      exact ⟨hwf, by rw [encode, hkey, ← eq_keyByte (k := 0b0000#4) hb]; rfl⟩
    case h_16 hb =>
      obtain ⟨c, rfl, rfl⟩ := decodeHalt_eq_ok h
      exact ⟨rfl, by rw [eq_keyByte (k := 0b1111#4) hb]; rfl⟩
    case h_17 => cases h
    all_goals
      next hb =>
        cases h
        exact ⟨rfl, congrArg (· :: rest) (eq_keyByte hb)⟩

/-- Settles O5: each word is evaluated (R101, R104, V-F). -/
theorem sampleWordsDecode : Obligations.SampleWordsDecode := by
  refine ⟨?_, ?_, ?_, ?_, ?_, ?_, ?_, ?_⟩ <;> decide

end Sys2Proof
end

section
/-!
SUPPORT. Which operation a step runs (spec/30_encoding.md R105, R106, R108): the keys `next_op` gives, the operation a
step decodes, and the operations that answer by name alone (R108, R109) or with a free cause (log 10).
-/

namespace Sys2Proof.Machine

/-! ## Phases and selected keys -/

/-- Settles O6: the codes and the cycle are the definitions; the successor's code is `code_next_toNat`. -/
theorem phaseCodesCycle : Obligations.PhaseCodesCycle :=
  ⟨rfl, rfl, rfl, rfl, code_next_toNat, rfl, rfl, rfl, rfl⟩

/-- The keys `next_op` can give: `BRINGUP_STEP`, the dispatchers' eight and the two polls (R104, R105). -/
theorem nextKey_range {s : State} {k : BitVec 4} (h : nextKey s = some k) :
    k = 0b0010#4 ∨ (0b0100#4 ≤ k ∧ k ≤ 0b1101#4) := by
  unfold nextKey at h
  split at h
  next => cases h
  next => cases h; exact .inl rfl
  next =>
    refine .inr ?_
    split at h <;> cases h
    next => decide
    next => cases s.rxPhase <;> decide
    next => decide
    next => cases s.txPhase <;> decide

/-- Settles O7: the control state determines the key by cases, and the three keys lie outside its range
(`nextKey_range`). -/
theorem nextOpFollowsControlState : Obligations.NextOpFollowsControlState := by
  intro s
  refine ⟨?_, fun h => absurd (nextKey_range h) (by decide), fun h => absurd (nextKey_range h) (by decide),
    fun h => absurd (nextKey_range h) (by decide)⟩
  cases hm : s.mode with
  | halted => simp [nextKey, hm]
  | boot => simp [nextKey, hm]
  | run => cases hpc : s.schedPc <;> simp [nextKey, hm, hpc]

/-- Settles O17: the reserved rows' meanings are refusals, and their keys lie outside `next_op`'s range
(`nextKey_range`). -/
theorem reservedKeysAreRefused : Obligations.ReservedKeysAreRefused := fun _ =>
  ⟨rfl, rfl, fun h => absurd (nextKey_range h) (by decide), fun h => absurd (nextKey_range h) (by decide)⟩

/-- An operation that `next_op` selects has no operand bytes: its key is its whole encoding (R105, R107). -/
theorem encode_of_nextKey {i : Instr} {s : State} (h : nextKey s = some i.key) :
    encode i = [keyByte i.key] ∧ i.wf = true := by
  cases i with
  | ctrlWrite a v => exact absurd (nextKey_range h) (by simp [Instr.key])
  | halt c => exact absurd (nextKey_range h) (by simp [Instr.key])
  | _ => exact ⟨rfl, rfl⟩

theorem decode_keyByte_of_nextKey_eq {i : Instr} {s : State} (h : nextKey s = some i.key) :
    decode [keyByte i.key] = .ok (i, []) := by
  obtain ⟨hbytes, hwf⟩ := encode_of_nextKey h
  have hdecode := decodeInvertsEncode i [] hwf
  rwa [List.append_nil, hbytes] at hdecode

/-! ## The operation of a step -/

/-- What a step of a running block does with bytes that decode (R105, log 11). -/
theorem step_of_decode {s : State} {bs rest : List Byte} {i : Instr} (hrun : s.running)
    (hb : operationBytes s = some bs) (hd : decode bs = .ok (i, rest)) :
    step s = if placed i s then exec i (s.taken rest) else .refused (.outOfPlace i.key) := by
  obtain ⟨hwf, hreset⟩ := hrun
  simp only [step, hwf, hreset, hb, hd]
  rfl

/-- Settles O8: the two answers are the branches of `step_of_decode`, and what is selected is in place
(`placed_of_nextKey`). -/
theorem stepRunsDecodedOperation : Obligations.StepRunsDecodedOperation := by
  intro s bs rest i hrun hb hd
  have hstep := step_of_decode hrun hb hd
  refine ⟨fun hp => ?_, fun hp => ?_, placed_of_nextKey⟩
  · rw [hstep, if_pos hp]
    rfl
  · rw [hstep, if_neg (by simp [hp])]

/-- With nothing presented there are no bytes to take: only the reset source's entry passes. -/
theorem taken_nil {s : State} (h : s.selfDriven) : s.taken [] = resetPassed s := (congrArg s.taken h).symm

/-- Settles O9: with nothing presented the bytes are the selected key's, which decode to the operation
(`decode_keyByte_of_nextKey_eq`), and it is in place. -/
theorem selfDrivenStepRunsNextOp : Obligations.SelfDrivenStepRunsNextOp := by
  intro s i hrun hself hkey
  have hb : operationBytes s = some [keyByte i.key] := by rw [operationBytes_selfDriven hself, hkey]; rfl
  rw [step_of_decode hrun hb (decode_keyByte_of_nextKey_eq hkey), if_pos (placed_of_nextKey hkey), taken_nil hself]

/-- Settles O10: in `Halted` there is no key, so there are no bytes to decode (R262, R269). -/
theorem haltedBlockTakesNoStep : Obligations.HaltedBlockTakesNoStep := by
  rintro s ⟨hwf, hreset⟩ hm
  have hkey : nextKey s = none := nextKey_eq_none.mpr hm
  have hb : operationBytes s = none := by rw [operationBytes, hkey]
  refine ⟨?_, hkey⟩
  simp only [step, hwf, hreset, hb]
  rfl

/-! ## `CTRL_WRITE` refused -/

theorem execCtrlWrite_of_not_wf {a v : Nat} (h : ¬ (Instr.ctrlWrite a v).wf = true) (s : State) :
    execCtrlWrite a v s = .refused (.operandTooWide a v) := if_neg h

theorem execCtrlWrite_of_wf {a v : Nat} (h : (Instr.ctrlWrite a v).wf = true) (s : State) :
    execCtrlWrite a v s = if s.mode = .boot then .next (sendFrame ⟨BitVec.ofNat 7 a, BitVec.ofNat 9 v⟩ s).2
      else .refused .notInBoot := if_pos h

/-- Settles O21: the widths are asked for first (R109), then the mode (R137). -/
theorem ctrlWriteRefusals : Obligations.CtrlWriteRefusals := by
  refine ⟨fun a v s hwide => execCtrlWrite_of_not_wf ?_ s, fun a v s ha hv hm => ?_⟩
  · rw [ctrlWrite_wf_iff]
    omega
  · exact (execCtrlWrite_of_wf (ctrlWrite_wf_iff.mpr ⟨ha, hv⟩) s).trans (if_neg hm)

/-! ## `HALT` by its key alone -/

/-- All that the fatal halt writes (R262, R134). -/
theorem raiseHalt_eq (cause : FatalCause) (s : State) :
    raiseHalt cause s = { s with
      mode := .halted
      haltCause := some cause
      csN := (raiseHalt cause s).csN
      draws := (raiseHalt cause s).draws } := by
  cases cause <;> rfl

/-- Settles O44: the cause is the one `haltOperand` draws in the mode (R266, log 10), and the halt writes no more than
`raiseHalt_eq` says. -/
theorem haltKeyAloneHalts : Obligations.HaltKeyAloneHalts := by
  intro s
  refine ⟨raiseHalt (haltOperand none s).1 (haltOperand none s).2, (haltOperand none s).1, rfl, fun hm => ?_,
    fun hm => ?_, raiseHalt_eq (haltOperand none s).1 (haltOperand none s).2⟩
  · exact ⟨Config.freeBusFault s.draws, by simp [haltOperand, hm]⟩
  · cases hfree : Config.freeOverrun s.draws <;> simp [haltOperand, hm, hfree]

end Sys2Proof.Machine
end

section
/-!
SUPPORT. The polling scheduler (spec/45_scheduler.md R232 to R235): `SCHED_STEP` as the composition of its operations.
-/

namespace Sys2Proof.Machine

/-! ## The operations of an iteration, with the cursors in range -/

/-- `RX_POLL` found a word to receive (R232). -/
def rxReady (s : State) : State := { rxStatusRead s with schedPc := .rxService }

/-- `RX_POLL` found nothing to receive (R232). -/
def rxIdle (s : State) : State := { rxStatusRead s with schedPc := .txPoll }

/-- `TX_POLL` found room for a word (R234). -/
def txReady (s : State) : State := { txStatusRead s with schedPc := .txService }

/-- `TX_POLL` found no room (R234). -/
def txIdle (s : State) : State := { txStatusRead s with schedPc := .rxPoll }

/-- The buffer once the received word is dealt with: stored in the left phases, discarded in the right ones (R171 to
R174). -/
def storedMem (s : State) : Memory :=
  match s.rxPhase with
  | .leftTop => s.mem.write .top s.wc (rxWordAnswer s)
  | .leftBot => s.mem.write .bot s.wc (rxWordAnswer s)
  | .rightTop => s.mem
  | .rightBot => s.mem

/-- The word to transmit: from the buffer in the left phases, silence in the right ones (R191 to R194). -/
def sentWord (s : State) : Word :=
  match s.txPhase with
  | .leftTop => s.mem.read .top s.rc
  | .leftBot => s.mem.read .bot s.rc
  | .rightTop => 0
  | .rightBot => 0

/-- The RX operation of the phase is done (R171 to R174). -/
def rxServed (s : State) : State :=
  { rxDataRead s with
    mem := storedMem s
    wc := if s.rxPhase = .leftBot then adv s.config.bufLen s.wc else s.wc
    nrx := if s.rxPhase = .leftBot then s.nrx + 1 else s.nrx
    rxPhase := s.rxPhase.next
    schedPc := .txPoll }

/-- The TX operation of the phase is done (R191 to R194). -/
def txServed (s : State) : State :=
  { txDataWrite (sentWord s) s with
    rc := if s.txPhase = .leftBot then adv s.config.bufLen s.rc else s.rc
    ntx := if s.txPhase = .leftBot then s.ntx + 1 else s.ntx
    txPhase := s.txPhase.next
    schedPc := .rxPoll }

/-- A received word is stored at the write cursor when that is in range. -/
theorem storeReceived_in {s : State} (h : s.wc < s.config.bufLen) (n : BufferName) (f : State → Result) :
    withRxOperand s (fun w s1 => andThen (bufWrite n s1.wc w s1) f) =
      f { rxDataRead s with mem := s.mem.write n s.wc (rxWordAnswer s) } := by
  have hin : (rxDataRead s).wc < (rxDataRead s).config.bufLen := h
  rw [withRxOperand, bufWrite_in hin, andThen_next]
  rfl

theorem rxService_in {s : State} (h : s.wc < s.config.bufLen) : rxService s = .next (rxServed s) := by
  cases hp : s.rxPhase with
  | leftTop =>
    simp only [rxService, hp, execRxLt]
    rw [storeReceived_in h]
    simp [rxServed, storedMem, hp, ChannelPhase.next]
  | leftBot =>
    simp only [rxService, hp, execRxLb]
    rw [storeReceived_in h]
    simp [rxServed, storedMem, hp, ChannelPhase.next]
  | rightTop => simp [rxService, rxServed, storedMem, hp, execRxRt, withRxOperand, ChannelPhase.next]
  | rightBot => simp [rxService, rxServed, storedMem, hp, execRxRb, withRxOperand, ChannelPhase.next]

theorem txService_in {s : State} (h : s.rc < s.config.bufLen) : txService s = .next (txServed s) := by
  cases hp : s.txPhase with
  | leftTop => simp [txService, txServed, sentWord, hp, execTxLt, bufRead_in h, ChannelPhase.next]
  | leftBot => simp [txService, txServed, sentWord, hp, execTxLb, bufRead_in h, ChannelPhase.next]
  | rightTop => simp [txService, txServed, sentWord, hp, execTxRt, ChannelPhase.next]
  | rightBot => simp [txService, txServed, sentWord, hp, execTxRb, ChannelPhase.next]

/-- Which cell an RX operation writes (R171, R172), and that it writes no other. -/
theorem read_storedMem (s : State) (n : BufferName) (i : Nat) :
    (storedMem s).read n i =
      if i = s.wc ∧ (n = .top ∧ s.rxPhase = .leftTop ∨ n = .bot ∧ s.rxPhase = .leftBot)
      then rxWordAnswer s else s.mem.read n i := by
  cases hp : s.rxPhase <;> simp [storedMem, hp, Memory.read_write, and_comm]

/-! ## The branches of an iteration -/

theorem execRxPoll_fault {s : State} (hv : rxVerdict (rxStatusAnswer s) = .fault) :
    execRxPoll s = .next (raiseHalt .overrun (rxStatusRead s)) := by
  rw [execRxPoll, hv]

theorem execRxPoll_service {s : State} (hv : rxVerdict (rxStatusAnswer s) = .service) :
    execRxPoll s = .next (rxReady s) := by
  rw [execRxPoll, hv, rxReady]

theorem execRxPoll_idle {s : State} (hv : rxVerdict (rxStatusAnswer s) = .idle) :
    execRxPoll s = .next (rxIdle s) := by
  rw [execRxPoll, hv, rxIdle]

theorem execTxPoll_fault {s : State} (hv : txVerdict (txStatusAnswer s) = .fault) :
    execTxPoll s = .next (raiseHalt .underrun (txStatusRead s)) := by
  rw [execTxPoll, hv]

theorem execTxPoll_service {s : State} (hv : txVerdict (txStatusAnswer s) = .service) :
    execTxPoll s = .next (txReady s) := by
  rw [execTxPoll, hv, txReady]

theorem execTxPoll_idle {s : State} (hv : txVerdict (txStatusAnswer s) = .idle) :
    execTxPoll s = .next (txIdle s) := by
  rw [execTxPoll, hv, txIdle]

theorem txHalf_fault {s : State} (hv : txVerdict (txStatusAnswer s) = .fault) :
    txHalf s = .next (raiseHalt .underrun (txStatusRead s)) := by
  simp [txHalf, execTxPoll_fault hv]

theorem txHalf_service {s : State} (hm : s.mode = .run) (hv : txVerdict (txStatusAnswer s) = .service) :
    txHalf s = txService (txReady s) := by
  simp [txHalf, execTxPoll_service hv, txReady, hm]

theorem txHalf_idle {s : State} (hm : s.mode = .run) (hv : txVerdict (txStatusAnswer s) = .idle) :
    txHalf s = .next (txIdle s) := by
  simp [txHalf, execTxPoll_idle hv, txIdle, hm]

theorem execSchedStep_fault {s : State} (hm : s.mode = .run) (hpc : s.schedPc = .rxPoll)
    (hv : rxVerdict (rxStatusAnswer s) = .fault) : execSchedStep s = .next (raiseHalt .overrun (rxStatusRead s)) := by
  simp [execSchedStep, execRxPoll_fault hv, hm, hpc]

theorem execSchedStep_service {s : State} (hm : s.mode = .run) (hpc : s.schedPc = .rxPoll)
    (hv : rxVerdict (rxStatusAnswer s) = .service) :
    execSchedStep s = andThen (rxService (rxReady s)) txHalf := by
  simp [execSchedStep, execRxPoll_service hv, rxReady, hm, hpc]

theorem execSchedStep_idle {s : State} (hm : s.mode = .run) (hpc : s.schedPc = .rxPoll)
    (hv : rxVerdict (rxStatusAnswer s) = .idle) : execSchedStep s = txHalf (rxIdle s) := by
  simp [execSchedStep, execRxPoll_idle hv, rxIdle, hm, hpc]

/-! ## The fault-free iteration -/

theorem rxVerdict_of_no_fault {st : RxStatus} (h : st.ovr = false) :
    rxVerdict st = if st.ready then .service else .idle := by
  simp [rxVerdict, h]

theorem txVerdict_of_no_fault {st : TxStatus} (h : st.udr = false) :
    txVerdict st = if st.ready then .service else .idle := by
  simp [txVerdict, h]

/-- The receive half of an iteration without an overrun. -/
def rxHalfDone (s : State) : State := if (rxStatusAnswer s).ready then rxServed (rxReady s) else rxIdle s

/-- The transmit half of an iteration without an underrun. -/
def txHalfDone (s : State) : State := if (txStatusAnswer s).ready then txServed (txReady s) else txIdle s

theorem txHalf_of_no_fault {s : State} (hm : s.mode = .run) (hrc : s.rc < s.config.bufLen)
    (hudr : (txStatusAnswer s).udr = false) : txHalf s = .next (txHalfDone s) := by
  have hv := txVerdict_of_no_fault hudr
  cases hready : (txStatusAnswer s).ready with
  | true =>
    have hin : (txReady s).rc < (txReady s).config.bufLen := hrc
    rw [txHalf_service hm (by simp [hv, hready]), txService_in hin, txHalfDone, if_pos hready]
  | false => rw [txHalf_idle hm (by simp [hv, hready]), txHalfDone, if_neg (by simp [hready])]

theorem execSchedStep_of_no_overrun {s : State} (hm : s.mode = .run) (hpc : s.schedPc = .rxPoll)
    (hwc : s.wc < s.config.bufLen) (hovr : (rxStatusAnswer s).ovr = false) :
    execSchedStep s = txHalf (rxHalfDone s) := by
  have hv := rxVerdict_of_no_fault hovr
  cases hready : (rxStatusAnswer s).ready with
  | true =>
    have hin : (rxReady s).wc < (rxReady s).config.bufLen := hwc
    rw [execSchedStep_service hm hpc (by simp [hv, hready]), rxService_in hin, andThen_next, rxHalfDone, if_pos hready]
  | false => rw [execSchedStep_idle hm hpc (by simp [hv, hready]), rxHalfDone, if_neg (by simp [hready])]

@[simp] theorem rxHalfDone_config (s : State) : (rxHalfDone s).config = s.config := by unfold rxHalfDone; split <;> rfl
@[simp] theorem rxHalfDone_mode (s : State) : (rxHalfDone s).mode = s.mode := by unfold rxHalfDone; split <;> rfl
@[simp] theorem rxHalfDone_rc (s : State) : (rxHalfDone s).rc = s.rc := by unfold rxHalfDone; split <;> rfl
@[simp] theorem txHalfDone_mem (s : State) : (txHalfDone s).mem = s.mem := by unfold txHalfDone; split <;> rfl

/-- The receive half leaves the transmit side's answers alone, but it may draw free values. -/
theorem txStatusAnswer_rxHalfDone (s : State) :
    txStatusAnswer (rxHalfDone s) = txStatusAnswer { s with draws := (rxHalfDone s).draws } := by
  unfold rxHalfDone
  split <;> rfl

theorem read_rxHalfDone (s : State) (n : BufferName) (i : Nat) :
    (rxHalfDone s).mem.read n i =
      if (rxStatusAnswer s).ready = true ∧ i = s.wc ∧
        (n = .top ∧ s.rxPhase = .leftTop ∨ n = .bot ∧ s.rxPhase = .leftBot)
      then rxWordAnswer (rxStatusRead s) else s.mem.read n i := by
  rw [ite_and, rxHalfDone]
  split
  · exact read_storedMem (rxReady s) n i
  · rfl

/-- Settles O37: without a fault flag the iteration is its receive half followed by its transmit half; the buffer is
written by the first alone (`read_rxHalfDone`). -/
theorem schedStepCompletes : Obligations.SchedStepCompletes := by
  intro s tst hm hpc hwc hrc hovr htx hudr
  have htst : txStatusAnswer (rxHalfDone s) = tst := (txStatusAnswer_rxHalfDone s).trans (htx _)
  have hhalf : txHalf (rxHalfDone s) = .next (txHalfDone (rxHalfDone s)) :=
    txHalf_of_no_fault (by simpa using hm) (by simpa using hrc) (by rwa [htst])
  refine ⟨txHalfDone (rxHalfDone s), (execSchedStep_of_no_overrun hm hpc hwc hovr).trans hhalf, fun n i => ?_, ?_⟩
  · rw [txHalfDone_mem, read_rxHalfDone]
  · simp only [ite_and]
    rw [txHalfDone, htst, rxHalfDone]
    cases (rxStatusAnswer s).ready with
    | true =>
      cases tst.ready <;> simp [hpc, rxServed, rxReady, txServed, txReady, txIdle, adv] <;> exact ⟨rfl, rfl⟩
    | false => cases tst.ready <;> simp [hpc, rxIdle, txServed, txReady, txIdle, adv]

end Sys2Proof.Machine
end

section
/-!
SUPPORT. `SCHED_STEP` as a run of the block left to itself (spec/45_scheduler.md R231, R235, R238): every operation of
an iteration is one step with one access, whatever the reset source's list holds behind it.
-/

namespace Sys2Proof.Machine

/-! ## Walks -/

/-- The state with other coming entries of the reset source's list. -/
def State.withResets (s : State) (rs : List Bool) : State := { s with env := { s.env with resets := rs } }

/-- The block left to itself goes from `s` to `t` in `k` steps of one access each, whatever quiet entries the reset
source's list holds (R231, R278). -/
structure Walk (k : Nat) (s t : State) : Prop where
  run : ∀ rs : List Bool, (∀ b ∈ rs, b = false) →
    Host.Core.run Sys2Proof.core k (s.withResets rs) = .next (t.withResets (rs.drop k))
  accesses : t.trace.length = s.trace.length + k

/-- In `Run` at a place of the polling loop, with nothing presented and both cursors in range. -/
structure State.LoopsAt (s : State) (pc : SchedPc) : Prop where
  config_wf : s.config.wf = true
  selfDriven : s.selfDriven
  mode : s.mode = .run
  schedPc : s.schedPc = pc
  wc_in : s.wc < s.config.bufLen
  rc_in : s.rc < s.config.bufLen

theorem run_append {k : Nat} {s t : State} (h : Host.Core.run Sys2Proof.core k s = .next t) (l : Nat) :
    Host.Core.run Sys2Proof.core (k + l) s = Host.Core.run Sys2Proof.core l t := by
  induction k generalizing s with
  | zero => cases h; rw [Nat.zero_add]
  | succ k ih =>
    cases hs : step s with
    | next u =>
      rw [run_succ_next hs] at h
      rw [Nat.succ_add, run_succ_next hs, ih h]
    | fault r => rw [run_succ_fault hs] at h; cases h
    | refused r => rw [run_succ_refused hs] at h; cases h

theorem Walk.trans {k l : Nat} {s t u : State} (h₁ : Walk k s t) (h₂ : Walk l t u) : Walk (k + l) s u where
  run rs hquiet := by
    rw [run_append (h₁.run rs hquiet), h₂.run _ fun b hb => hquiet b (List.mem_of_mem_drop hb), List.drop_drop]
  accesses := by rw [h₂.accesses, h₁.accesses, Nat.add_assoc]

theorem resetNow_of_quiet {s : State} (h : s.quiet) : resetNow s = false := by
  unfold resetNow
  cases hr : s.env.resets with
  | nil => rfl
  | cons b rs => exact h b (hr ▸ List.mem_cons_self)

/-- One step of the walk: the operation `next_op` selects, with one access, whose outcome is the same whatever the reset
source's list holds. -/
theorem Walk.step {pc : SchedPc} {i : Instr} {s t : State} (h : s.LoopsAt pc) (hkey : nextKey s = some i.key)
    (hexec : ∀ rs, exec i (s.withResets rs) = .next (t.withResets rs))
    (haccess : t.trace.length = s.trace.length + 1) : Walk 1 s t where
  run rs hquiet := by
    have hrun : (s.withResets rs).running := ⟨h.config_wf, resetNow_of_quiet hquiet⟩
    have hstep : Machine.step (s.withResets rs) = .next (t.withResets rs.tail) :=
      (selfDrivenStepRunsNextOp _ i hrun h.selfDriven hkey).trans (hexec rs.tail)
    rw [run_succ_next hstep, run_zero, List.drop_one]
  accesses := haccess

/-! ## The operations of the loop as steps -/

/-- The RX operation of a phase (R170). -/
def rxOperation : ChannelPhase → Instr
  | .leftTop => .rxLt
  | .leftBot => .rxLb
  | .rightTop => .rxRt
  | .rightBot => .rxRb

/-- The TX operation of a phase (R190). -/
def txOperation : ChannelPhase → Instr
  | .leftTop => .txLt
  | .leftBot => .txLb
  | .rightTop => .txRt
  | .rightBot => .txRb

theorem exec_rxOperation (s : State) : exec (rxOperation s.rxPhase) s = rxService s := by
  unfold rxService
  cases s.rxPhase <;> rfl

theorem exec_txOperation (s : State) : exec (txOperation s.txPhase) s = txService s := by
  unfold txService
  cases s.txPhase <;> rfl

theorem State.LoopsAt.nextKey_rxService {s : State} (h : s.LoopsAt .rxService) :
    nextKey s = some (rxOperation s.rxPhase).key := by
  cases hp : s.rxPhase <;> simp [nextKey, h.mode, h.schedPc, hp, rxOperation, Instr.key, ChannelPhase.code]

theorem State.LoopsAt.nextKey_txService {s : State} (h : s.LoopsAt .txService) :
    nextKey s = some (txOperation s.txPhase).key := by
  cases hp : s.txPhase <;> simp [nextKey, h.mode, h.schedPc, hp, txOperation, Instr.key, ChannelPhase.code]

theorem State.LoopsAt.nextKey_rxPoll {s : State} (h : s.LoopsAt .rxPoll) : nextKey s = some Instr.rxPoll.key := by
  simp [nextKey, h.mode, h.schedPc, Instr.key]

theorem State.LoopsAt.nextKey_txPoll {s : State} (h : s.LoopsAt .txPoll) : nextKey s = some Instr.txPoll.key := by
  simp [nextKey, h.mode, h.schedPc, Instr.key]

theorem walk_rxServed {s : State} (h : s.LoopsAt .rxService) : Walk 1 s (rxServed s) :=
  .step h h.nextKey_rxService
    (fun rs => (exec_rxOperation (s.withResets rs)).trans (rxService_in (s := s.withResets rs) h.wc_in))
    List.length_append

theorem walk_txServed {s : State} (h : s.LoopsAt .txService) : Walk 1 s (txServed s) :=
  .step h h.nextKey_txService
    (fun rs => (exec_txOperation (s.withResets rs)).trans (txService_in (s := s.withResets rs) h.rc_in))
    List.length_append

theorem walk_rxFault {s : State} (h : s.LoopsAt .rxPoll) (hv : rxVerdict (rxStatusAnswer s) = .fault) :
    Walk 1 s (raiseHalt .overrun (rxStatusRead s)) :=
  .step h h.nextKey_rxPoll (fun rs => execRxPoll_fault (s := s.withResets rs) hv) List.length_append

theorem walk_rxReady {s : State} (h : s.LoopsAt .rxPoll) (hv : rxVerdict (rxStatusAnswer s) = .service) :
    Walk 1 s (rxReady s) :=
  .step h h.nextKey_rxPoll (fun rs => execRxPoll_service (s := s.withResets rs) hv) List.length_append

theorem walk_rxIdle {s : State} (h : s.LoopsAt .rxPoll) (hv : rxVerdict (rxStatusAnswer s) = .idle) :
    Walk 1 s (rxIdle s) :=
  .step h h.nextKey_rxPoll (fun rs => execRxPoll_idle (s := s.withResets rs) hv) List.length_append

theorem walk_txFault {s : State} (h : s.LoopsAt .txPoll) (hv : txVerdict (txStatusAnswer s) = .fault) :
    Walk 1 s (raiseHalt .underrun (txStatusRead s)) :=
  .step h h.nextKey_txPoll (fun rs => execTxPoll_fault (s := s.withResets rs) hv) List.length_append

theorem walk_txReady {s : State} (h : s.LoopsAt .txPoll) (hv : txVerdict (txStatusAnswer s) = .service) :
    Walk 1 s (txReady s) :=
  .step h h.nextKey_txPoll (fun rs => execTxPoll_service (s := s.withResets rs) hv) List.length_append

theorem walk_txIdle {s : State} (h : s.LoopsAt .txPoll) (hv : txVerdict (txStatusAnswer s) = .idle) :
    Walk 1 s (txIdle s) :=
  .step h h.nextKey_txPoll (fun rs => execTxPoll_idle (s := s.withResets rs) hv) List.length_append

theorem State.LoopsAt.rxReady {s : State} (h : s.LoopsAt .rxPoll) : (rxReady s).LoopsAt .rxService :=
  { h with schedPc := rfl }

theorem State.LoopsAt.rxIdle {s : State} (h : s.LoopsAt .rxPoll) : (rxIdle s).LoopsAt .txPoll :=
  { h with schedPc := rfl }

theorem State.LoopsAt.txReady {s : State} (h : s.LoopsAt .txPoll) : (txReady s).LoopsAt .txService :=
  { h with schedPc := rfl }

theorem State.LoopsAt.rxServed {s : State} (h : s.LoopsAt .rxService) : (rxServed s).LoopsAt .txPoll where
  config_wf := h.config_wf
  selfDriven := h.selfDriven
  mode := h.mode
  schedPc := rfl
  wc_in := by
    show (if s.rxPhase = .leftBot then adv s.config.bufLen s.wc else s.wc) < s.config.bufLen
    split
    · exact adv_lt (Nat.zero_lt_of_lt h.wc_in) s.wc
    · exact h.wc_in
  rc_in := h.rc_in

/-! ## The halves of an iteration as walks -/

/-- The transmit half is a walk of one or two steps back to the loop's start, or of one step into the halt (R234,
R235). -/
theorem txHalf_walk {s : State} (h : s.LoopsAt .txPoll) : ∃ k t, txHalf s = .next t ∧ Walk k s t ∧
    (t.mode = .run ∧ t.schedPc = .rxPoll ∧ 1 ≤ k ∧ k ≤ 2 ∨ t.mode = .halted ∧ k = 1) := by
  cases hv : txVerdict (txStatusAnswer s) with
  | fault => exact ⟨1, _, txHalf_fault hv, walk_txFault h hv, .inr ⟨rfl, rfl⟩⟩
  | service =>
    have hserve : txHalf s = .next (txServed (txReady s)) :=
      (txHalf_service h.mode hv).trans (txService_in h.txReady.rc_in)
    exact ⟨2, _, hserve, (walk_txReady h hv).trans (walk_txServed h.txReady),
      .inl ⟨h.mode, rfl, by decide, by decide⟩⟩
  | idle => exact ⟨1, _, txHalf_idle h.mode hv, walk_txIdle h hv, .inl ⟨h.mode, rfl, by decide, by decide⟩⟩

/-- `SCHED_STEP` is a walk of two to four steps back to the loop's start, or of one to three into the halt (R235,
R238). -/
theorem execSchedStep_walk {s : State} (h : s.LoopsAt .rxPoll) : ∃ k t, execSchedStep s = .next t ∧ Walk k s t ∧
    (t.mode = .run ∧ t.schedPc = .rxPoll ∧ 2 ≤ k ∧ k ≤ 4 ∨ t.mode = .halted ∧ 1 ≤ k ∧ k ≤ 3) := by
  cases hv : rxVerdict (rxStatusAnswer s) with
  | fault =>
    exact ⟨1, _, execSchedStep_fault h.mode h.schedPc hv, walk_rxFault h hv, .inr ⟨rfl, by decide, by decide⟩⟩
  | service =>
    obtain ⟨k, t, ht, hwalk, hend⟩ := txHalf_walk h.rxReady.rxServed
    have hserve : Walk 2 s (rxServed (rxReady s)) := (walk_rxReady h hv).trans (walk_rxServed h.rxReady)
    refine ⟨2 + k, t, ?_, hserve.trans hwalk, by grind⟩
    rw [execSchedStep_service h.mode h.schedPc hv, rxService_in h.rxReady.wc_in, andThen_next, ht]
  | idle =>
    obtain ⟨k, t, ht, hwalk, hend⟩ := txHalf_walk h.rxIdle
    exact ⟨1 + k, t, (execSchedStep_idle h.mode h.schedPc hv).trans ht, (walk_rxIdle h hv).trans hwalk, by grind⟩

/-- Settles O38: the composite's walk (`execSchedStep_walk`), taken with the reset source's list that the state has. -/
theorem schedStepIsOneIteration : Obligations.SchedStepIsOneIteration := by
  intro s hwf hquiet hself hm hpc hwc hrc
  obtain ⟨k, t, ht, hwalk, hend⟩ := execSchedStep_walk ⟨hwf, hself, hm, hpc, hwc, hrc⟩
  exact ⟨k, t, ht, hwalk.run s.env.resets hquiet, hwalk.accesses, hend⟩

end Sys2Proof.Machine
end

section
/-!
SUPPORT. The control channel (spec/40_control_channel.md R130 to R137): what a frame does under each pair of verdicts,
and `CTRL_WRITE` as the frame of its operands.
-/

namespace Sys2Proof.Machine

/-! ## A frame under each pair of verdicts -/

/-- The frame fails at the byte (R134, R260): the block halts with the write and the byte recorded, after the frame's
events up to that byte; the level of `cs_n` is open. `FrameFails` with the byte named. -/
def FrameFailsAt (byte : Fin 2) (r : ControlRegister) (s t : State) : Prop :=
  t = { s with
    mode := .halted
    haltCause := some (.busFault ⟨r.address, r.value, byte⟩)
    csN := t.csN
    trace := s.trace ++ (frameEvents r).take (byte.val + 2)
    env := { s.env with busVerdicts := s.env.busVerdicts.drop (byte.val + 1) }
    draws := t.draws }

theorem sendFrame_of_err {r : ControlRegister} {s : State} (h0 : busAnswer s = .err) :
    ∃ t, sendFrame r s = (.err, t) ∧ FrameFailsAt 0 r s t := by
  refine ⟨raiseHalt (.busFault ⟨r.address, r.value, 0⟩) (busXfer (frameByte0 r.address r.value) (csSet false s)),
    if_pos h0, ?_⟩
  simp [FrameFailsAt, raiseHalt, busXfer, csSet, frameEvents]

theorem sendFrame_of_ok_err {r : ControlRegister} {s : State} (h0 : busAnswer s = .ok)
    (h1 : secondVerdict r s = .err) : ∃ t, sendFrame r s = (.err, t) ∧ FrameFailsAt 1 r s t := by
  unfold secondVerdict at h1
  refine ⟨raiseHalt (.busFault ⟨r.address, r.value, 1⟩)
    (busXfer (frameByte1 r.value) (busXfer (frameByte0 r.address r.value) (csSet false s))),
    by simp [sendFrame, h0, h1], ?_⟩
  simp [FrameFailsAt, raiseHalt, busXfer, csSet, frameEvents, ← List.drop_tail]

theorem sendFrame_of_ok_ok {r : ControlRegister} {s : State} (h0 : busAnswer s = .ok)
    (h1 : secondVerdict r s = .ok) : ∃ t, sendFrame r s = (.ok, t) ∧ FramePasses r s t := by
  unfold secondVerdict at h1
  refine ⟨csHold (csSet true
    (busXfer (frameByte1 r.value) (busXfer (frameByte0 r.address r.value) (csSet false s)))),
    by simp [sendFrame, h0, h1], ?_⟩
  exact ⟨_, by simp [csHold, busXfer, csSet, frameEvents]; rfl⟩

theorem FramePasses.trace {r : ControlRegister} {s t : State} (h : FramePasses r s t) :
    t.trace = s.trace ++ frameEvents r := by
  obtain ⟨d, rfl⟩ := h
  rfl

theorem FrameFailsAt.trace {byte : Fin 2} {r : ControlRegister} {s t : State} (h : FrameFailsAt byte r s t) :
    t.trace = s.trace ++ (frameEvents r).take (byte.val + 2) :=
  congrArg State.trace h

/-! ## `CTRL_WRITE` performed -/

/-- `CTRL_WRITE` goes on exactly with operands in their widths, in `Boot`, to the end of the operands' frame (R109,
R130, R137). -/
theorem exec_ctrlWrite_eq_next_iff {a v : Nat} {s t : State} : exec (.ctrlWrite a v) s = .next t ↔
    (a < 128 ∧ v < 512) ∧ s.mode = .boot ∧ (sendFrame ⟨BitVec.ofNat 7 a, BitVec.ofNat 9 v⟩ s).2 = t := by
  show execCtrlWrite a v s = .next t ↔ _
  by_cases hwf : (Instr.ctrlWrite a v).wf = true
  · rw [execCtrlWrite_of_wf hwf, and_iff_right (ctrlWrite_wf_iff.mp hwf)]
    split
    next hm => simp [hm]
    next hm => simp [hm]
  · rw [execCtrlWrite_of_not_wf hwf, ← ctrlWrite_wf_iff]
    simp [hwf]

/-- Settles O20: the write ends where its frame ends (`exec_ctrlWrite_eq_next_iff`), and under each pair of verdicts the
frame's trace is known (R136). -/
theorem ctrlWriteTraceIsFrameOrPrefix : Obligations.CtrlWriteTraceIsFrameOrPrefix := by
  intro a v s t h
  obtain ⟨-, -, rfl⟩ := exec_ctrlWrite_eq_next_iff.mp h
  refine ⟨fun h0 h1 => ?_, fun h0 => ?_, fun h0 h1 => ?_⟩
  · obtain ⟨u, hu, hpass⟩ := sendFrame_of_ok_ok h0 h1
    rw [hu]
    exact hpass.trace
  · obtain ⟨u, hu, hfail⟩ := sendFrame_of_err h0
    rw [hu]
    exact hfail.trace
  · obtain ⟨u, hu, hfail⟩ := sendFrame_of_ok_err h0 h1
    rw [hu]
    exact hfail.trace

/-- Settles O18: the write ends where the frame ends that both verdicts pass (`sendFrame_of_ok_ok`). -/
theorem ctrlWriteSendsFrame : Obligations.CtrlWriteSendsFrame := by
  intro a v s ha hv hm h0 h1
  obtain ⟨t, ht, d, hpass⟩ := sendFrame_of_ok_ok h0 h1
  refine ⟨t, exec_ctrlWrite_eq_next_iff.mpr ⟨⟨ha, hv⟩, hm, congrArg Prod.snd ht⟩, ?_⟩
  subst hpass
  rfl

/-- Settles O19: the write ends where the frame fails, at its first byte (`sendFrame_of_err`) or at its second
(`sendFrame_of_ok_err`). -/
theorem ctrlWriteHaltsAtFirstFailure : Obligations.CtrlWriteHaltsAtFirstFailure := by
  intro a v s ha hv hm
  refine ⟨fun h0 => ?_, fun h0 h1 => ?_⟩
  · obtain ⟨t, ht, hfail⟩ := sendFrame_of_err h0
    refine ⟨t, exec_ctrlWrite_eq_next_iff.mpr ⟨⟨ha, hv⟩, hm, congrArg Prod.snd ht⟩, ?_⟩
    simpa [FrameFailsAt, frameEvents] using hfail
  · obtain ⟨t, ht, hfail⟩ := sendFrame_of_ok_err h0 h1
    refine ⟨t, exec_ctrlWrite_eq_next_iff.mpr ⟨⟨ha, hv⟩, hm, congrArg Prod.snd ht⟩, ?_⟩
    simpa [FrameFailsAt, frameEvents, ← List.drop_tail] using hfail

end Sys2Proof.Machine
end

section
/-!
SUPPORT. The bring-up sequencer (spec/41_bringup.md R152 to R157): `BRINGUP_STEP` as the frame of the next write, the
list replayed write by write, and the halt that a failing byte leaves.
-/

namespace Sys2Proof.Machine

/-! ## `BRINGUP_STEP` under the verdicts of its frame -/

theorem exec_bringupStep_of_ok {r : ControlRegister} {s t : State} (hr : bringupOperand s = some r)
    (ht : sendFrame r s = (.ok, t)) : exec .bringupStep s = .next (bringupAdvance t) := by
  show execBringupStep s = _
  rw [execBringupStep, hr]
  simp only [ht]

theorem exec_bringupStep_of_err {r : ControlRegister} {s t : State} (hr : bringupOperand s = some r)
    (ht : sendFrame r s = (.err, t)) : exec .bringupStep s = .next t := by
  show execBringupStep s = _
  rw [execBringupStep, hr]
  simp only [ht]

theorem nextKey_of_boot {s : State} (hm : s.mode = .boot) : nextKey s = some Instr.bringupStep.key := by
  rw [nextKey, hm]
  rfl

/-- Settles O22: the step sends the frame of `BRINGUP_SEQ[boot_idx]`. Where both bytes pass it then advances
(`bringupAdvance_eq`); where one fails the frame's end is the step's. -/
theorem bringupStepIssuesNextWrite : Obligations.BringupStepIssuesNextWrite := by
  refine ⟨⟨rfl, fun s hm => nextKey_of_boot hm⟩, fun s r hr => ⟨fun h0 h1 => ?_, fun h0 => ?_, fun h0 h1 => ?_⟩⟩
  · obtain ⟨u, hu, d, hpass⟩ := sendFrame_of_ok_ok h0 h1
    refine ⟨bringupAdvance u, exec_bringupStep_of_ok hr hu, ?_⟩
    rw [bringupAdvance_eq, hpass]
  · obtain ⟨t, ht, hfail⟩ := sendFrame_of_err h0
    exact ⟨t, exec_bringupStep_of_err hr ht, by simpa [FrameFailsAt] using hfail⟩
  · obtain ⟨t, ht, hfail⟩ := sendFrame_of_ok_err h0 h1
    exact ⟨t, exec_bringupStep_of_err hr ht, by simpa [FrameFailsAt, ← List.drop_tail] using hfail⟩

/-! ## `BRINGUP_STEP` as a step -/

/-- In `Boot`, with no reset and nothing presented, a step is `BRINGUP_STEP` (R105). -/
theorem step_of_boot {s : State} (hwf : s.config.wf = true) (hquiet : s.quiet) (hself : s.selfDriven)
    (hm : s.mode = .boot) : step s = exec .bringupStep (resetPassed s) :=
  selfDrivenStepRunsNextOp s .bringupStep ⟨hwf, resetNow_of_quiet hquiet⟩ hself (nextKey_of_boot hm)

theorem State.quiet.resetPassed {s : State} (h : s.quiet) : (resetPassed s).quiet :=
  fun b hb => h b (List.mem_of_mem_tail hb)

/-- With a verdict ready for each of a frame's two bytes, these are the frame's verdicts (R51). -/
theorem verdicts_of_busVerdicts {s : State} {v0 v1 : Verdict} {rest : List Verdict}
    (h : s.env.busVerdicts = v0 :: v1 :: rest) (r : ControlRegister) :
    busAnswer s = v0 ∧ secondVerdict r s = v1 := by
  simp [secondVerdict, busAnswer, busXfer, csSet, h]

/-! ## The list replayed -/

/-- The block after the first `k` writes of `c`'s list, with two verdicts `Ok` still to come for each of the others
(R152 to R156). -/
structure State.ReplayedTo (s : State) (c : Config) (more : List Verdict) (k : Nat) : Prop where
  config : s.config = c
  selfDriven : s.selfDriven
  quiet : s.quiet
  verdicts : s.env.busVerdicts = List.replicate (2 * (c.nBringup - k)) .ok ++ more
  trace : s.trace = (c.bringupSeq.take k).flatMap frameEvents
  bootIdx : s.bootIdx = k
  haltCause : s.haltCause = none
  mode : s.mode = if k = c.nBringup then .run else .boot
  schedPc : s.schedPc = .rxPoll
  active_at_end : k = c.nBringup → s.codecState = .active

theorem replayedTo_zero {c : Config} {e : Env} {more : List Verdict} (d : Nat) (hlist : 0 < c.nBringup)
    (hquiet : ∀ b ∈ e.resets, b = false)
    (hok : e.busVerdicts = List.replicate (2 * c.nBringup) .ok ++ more) :
    State.ReplayedTo { State.resetOf c with env := e, draws := d } c more 0 where
  config := rfl
  selfDriven := rfl
  quiet := hquiet
  verdicts := hok
  trace := rfl
  bootIdx := rfl
  haltCause := rfl
  mode := (if_neg hlist.ne).symm
  schedPc := rfl
  active_at_end hend := absurd hend hlist.ne

/-- The frame of write `k` passed and `boot_idx` advanced: one more write is replayed. -/
theorem State.ReplayedTo.advance {s u : State} {c : Config} {more : List Verdict} {k : Nat} {r : ControlRegister}
    (h : s.ReplayedTo c more k) (hr : c.bringupSeq[k]? = some r) (hm : s.mode = .boot)
    (hverdicts : s.env.busVerdicts = .ok :: .ok :: (List.replicate (2 * (c.nBringup - (k + 1))) .ok ++ more))
    (hu : FramePasses r (resetPassed s) u) : (bringupAdvance u).ReplayedTo c more (k + 1) := by
  obtain ⟨d, rfl⟩ := hu
  obtain ⟨rfl, hself, hquiet, -, htrace, rfl, hcause, -, hpc, -⟩ := h
  rw [bringupAdvance_eq]
  exact {
    config := rfl
    selfDriven := hself
    quiet := hquiet.resetPassed
    verdicts := congrArg (·.tail.tail) hverdicts
    trace := by
      show s.trace ++ frameEvents r = _
      rw [htrace, List.take_add_one, hr, List.flatMap_append, Option.toList_some, List.flatMap_singleton]
    bootIdx := rfl
    haltCause := hcause
    mode := by simp [hm]
    schedPc := by simp [hpc]
    active_at_end := fun hend => if_pos hend }

/-- While the list is not at its end, a step replays its next write. -/
theorem State.ReplayedTo.step {s : State} {c : Config} {more : List Verdict} {k : Nat} (h : s.ReplayedTo c more k)
    (hwf : c.wf = true) (hk : k < c.nBringup) : ∃ t, step s = .next t ∧ t.ReplayedTo c more (k + 1) := by
  have hm : s.mode = .boot := h.mode.trans (if_neg hk.ne)
  have hr : c.bringupSeq[k]? = some c.bringupSeq[k] := List.getElem?_eq_getElem hk
  have hoperand : bringupOperand (resetPassed s) = some c.bringupSeq[k] := by
    rw [← hr, ← h.config, ← h.bootIdx]
    rfl
  have hverdicts : s.env.busVerdicts =
      .ok :: .ok :: (List.replicate (2 * (c.nBringup - (k + 1))) .ok ++ more) := by
    rw [h.verdicts, show 2 * (c.nBringup - k) = 2 * (c.nBringup - (k + 1)) + 1 + 1 by omega]
    rfl
  obtain ⟨h0, h1⟩ := verdicts_of_busVerdicts (s := resetPassed s) hverdicts c.bringupSeq[k]
  obtain ⟨u, hu, hpass⟩ := sendFrame_of_ok_ok h0 h1
  refine ⟨bringupAdvance u, ?_, h.advance hr hm hverdicts hpass⟩
  rw [step_of_boot (h.config ▸ hwf) h.quiet h.selfDriven hm, exec_bringupStep_of_ok hoperand hu]

/-- The first `k` steps from a state with nothing replayed replay the first `k` writes. -/
theorem State.ReplayedTo.run {s : State} {c : Config} {more : List Verdict} (h : s.ReplayedTo c more 0)
    (hwf : c.wf = true) {k : Nat} (hk : k ≤ c.nBringup) :
    ∃ t, Host.Core.run Sys2Proof.core k s = .next t ∧ t.ReplayedTo c more k := by
  induction k with
  | zero => exact ⟨s, rfl, h⟩
  | succ k ih =>
    obtain ⟨t, hrun, ht⟩ := ih (Nat.le_of_succ_le hk)
    obtain ⟨u, hstep, hu⟩ := ht.step hwf hk
    exact ⟨u, (run_succ_last hrun).trans hstep, hu⟩

/-- Settles O24: the reset state has replayed nothing, and each step replays one more write (`ReplayedTo.run`). -/
theorem bringupReplaysTheWholeList : Obligations.BringupReplaysTheWholeList := by
  intro c e d more hwf hlist hquiet hok k hk
  obtain ⟨t, hrun, ht⟩ := (replayedTo_zero d hlist hquiet hok).run hwf hk
  exact ⟨t, hrun, ht.trace, ht.bootIdx, ht.haltCause, ht.mode, ht.schedPc, ht.active_at_end⟩

/-! ## A failing byte -/

/-- A completed bring-up write does not halt (R152, R154). -/
theorem FramePasses.mode_advance_ne_halted {r : ControlRegister} {s t : State} (h : FramePasses r s t)
    (hm : s.mode = .boot) : (bringupAdvance t).mode ≠ .halted := by
  obtain ⟨d, rfl⟩ := h
  rw [bringupAdvance_eq]
  show (if _ then Mode.run else s.mode) ≠ .halted
  split_ifs
  · exact Mode.noConfusion
  · simp [hm]

/-- Without a reset, every run of a halted block answers the fault `halted` (R262, log 14). -/
theorem run_of_halted {s : State} (hwf : s.config.wf = true) (hquiet : s.quiet) (hm : s.mode = .halted) (n : Nat) :
    Host.Core.run Sys2Proof.core (n + 1) s = .fault .halted :=
  run_succ_fault (haltedBlockTakesNoStep s ⟨hwf, resetNow_of_quiet hquiet⟩ hm).1 n

/-- Settles O25: the step is `BRINGUP_STEP`, which halts only where its frame fails; that leaves `codec_state`, records
the `BusFault`, and no step follows (`run_of_halted`). -/
theorem bringupFailureIsFatal : Obligations.BringupFailureIsFatal := by
  intro s t hwf hquiet hself hm hcodec hstep hhalted
  rw [step_of_boot hwf hquiet hself hm] at hstep
  cases effect_of_execBringupStep hstep with
  | bringupPasses _ _ _ hf => exact absurd hhalted (hf.mode_advance_ne_halted hm)
  | bringupFails r _ _ hf =>
    obtain ⟨byte, level, d, rfl⟩ := hf
    exact ⟨hcodec, ⟨_, rfl⟩, run_of_halted hwf hquiet.resetPassed hhalted⟩

end Sys2Proof.Machine
end

section
/-!
SUPPORT. The RX frame dispatcher (spec/42_rx_dispatcher.md R170 to R174): what each of the four operations answers. The
left words are stored through `storeReceived_in`; the right ones are read and no more.
-/

namespace Sys2Proof.Machine

/-- In the RX service position the phase selects the operation (R105, R170). -/
theorem nextKey_of_rxService {s : State} (hm : s.mode = .run) (hpc : s.schedPc = .rxService) :
    nextKey s = some (0b01#2 ++ s.rxPhase.code) := by
  rw [nextKey, hm, hpc]

theorem exec_rxLt_in {s : State} (h : s.wc < s.config.bufLen) :
    exec .rxLt s = .next { rxDataRead s with
      mem := s.mem.write .top s.wc (rxWordAnswer s), rxPhase := .leftBot, schedPc := .txPoll } :=
  storeReceived_in h .top _

theorem exec_rxLb_in {s : State} (h : s.wc < s.config.bufLen) :
    exec .rxLb s = .next { rxDataRead s with
      mem := s.mem.write .bot s.wc (rxWordAnswer s)
      wc := adv s.config.bufLen s.wc, nrx := s.nrx + 1, rxPhase := .rightTop, schedPc := .txPoll } :=
  storeReceived_in h .bot _

theorem exec_rxRt (s : State) :
    exec .rxRt s = .next { rxDataRead s with rxPhase := .rightBot, schedPc := .txPoll } := rfl

theorem exec_rxRb (s : State) :
    exec .rxRb s = .next { rxDataRead s with rxPhase := .leftTop, schedPc := .txPoll } := rfl

/-- Settles O27: the store is one `BufWrite` to `top` at `wc` (`exec_rxLt_in`, `Memory.read_write`). -/
theorem rxLtStoresIntoTop : Obligations.RxLtStoresIntoTop := by
  refine ⟨⟨rfl, fun s hm hpc hp => ?_⟩, fun s hwc => ?_⟩
  · rw [nextKey_of_rxService hm hpc, hp]; rfl
  · exact ⟨_, exec_rxLt_in hwc, fun n i => s.mem.read_write .top n s.wc i _, rfl⟩

/-- Settles O28: the store is one `BufWrite` to `bot` at the cursor before its advance (`exec_rxLb_in`,
`Memory.read_write`). -/
theorem rxLbStoresIntoBotAndAdvances : Obligations.RxLbStoresIntoBotAndAdvances := by
  refine ⟨⟨rfl, fun s hm hpc hp => ?_⟩, fun s hwc => ?_⟩
  · rw [nextKey_of_rxService hm hpc, hp]; rfl
  · exact ⟨_, exec_rxLb_in hwc, fun n i => s.mem.read_write .bot n s.wc i _, rfl⟩

/-- Settles O29: a right-channel operation is the read, with the phase and the loop moved on (`exec_rxRt`,
`exec_rxRb`). -/
theorem rightChannelWordsAreDiscarded : Obligations.RightChannelWordsAreDiscarded := by
  refine ⟨⟨rfl, fun s hm hpc hp => ?_⟩, ⟨rfl, fun s hm hpc hp => ?_⟩, fun s => ⟨?_, ?_⟩⟩
  · rw [nextKey_of_rxService hm hpc, hp]; rfl
  · rw [nextKey_of_rxService hm hpc, hp]; rfl
  · exact ⟨_, exec_rxRt s, fun _ _ => rfl, rfl⟩
  · exact ⟨_, exec_rxRb s, fun _ _ => rfl, rfl⟩

/-- A right-channel operation writes, beside the read's own effect, constants only (R173, R174). -/
theorem exec_right {i : Instr} (hi : i = .rxRt ∨ i = .rxRb) :
    ∃ p, ∀ s, exec i s = .next { rxDataRead s with rxPhase := p, schedPc := .txPoll } := by
  obtain rfl | rfl := hi
  · exact ⟨.rightBot, exec_rxRt⟩
  · exact ⟨.leftTop, exec_rxRb⟩

/-- The states after reading either of two words differ in the recorded access alone. -/
theorem rxDataRead_other_word (s : State) (w w' : Nat) (rest : List Nat) :
    rxDataRead { s with env := { s.env with rxWords := w' :: rest } } =
      { rxDataRead { s with env := { s.env with rxWords := w :: rest } } with
        trace := s.trace ++ [.rxDataRead (portWord s.config w')] } := rfl

/-- Settles O30: a right-channel operation keeps of the word no more than the read does (`exec_right`), and that is the
recorded access (`rxDataRead_other_word`). -/
theorem rightChannelWordHasNoEffect : Obligations.RightChannelWordHasNoEffect := by
  intro s t t' w w' rest i hi h h'
  obtain ⟨p, hexec⟩ := exec_right hi
  rw [hexec] at h h'
  cases h
  cases h'
  rw [rxDataRead_other_word s w w' rest]
  exact ⟨rfl, by simp⟩

end Sys2Proof.Machine
end

section
/-!
SUPPORT. The stream law (spec/42_rx_dispatcher.md R175, spec/43_tx_dispatcher.md R195, spec/44_echo_buffer.md R213):
what one more word received or sent does to the phases, to the frame counts and to the latest frame of a cell. A move
serves one word or moves none (`Move.served_or_wordsKept`).
-/

namespace Sys2Proof.Machine

/-! ## Frames among the words moved -/

/-- The frames whose word at slot `off` is among the first `n` words, as `topFrames` counts them for slot 0 and
`botFrames` for slot 1. -/
def slotFrames (off n : Nat) : Nat := (n + 3 - off) / 4

theorem topFrames_eq_slotFrames (n : Nat) : topFrames n = slotFrames 0 n := rfl
theorem botFrames_eq_slotFrames (n : Nat) : botFrames n = slotFrames 1 n := rfl

/-- A word adds a frame to a slot's count exactly when it falls into that slot. -/
theorem slotFrames_succ {off : Nat} (hoff : off < 4) (n : Nat) :
    slotFrames off (n + 1) = if n % 4 = off then slotFrames off n + 1 else slotFrames off n := by
  unfold slotFrames
  split <;> omega

/-- The frame of the word to come is the first one not yet counted for its slot. -/
theorem slotFrames_eq_div {off n : Nat} (h : n % 4 = off) : slotFrames off n = n / 4 := by
  unfold slotFrames
  omega

theorem slot_lt_of_lt_slotFrames {off n k : Nat} (hk : k < slotFrames off n) : 4 * k + off < n := by
  unfold slotFrames at hk
  omega

/-! ## The latest frame of a cell -/

theorem lt_of_latestFrame {L i n k : Nat} (h : latestFrame L i n = some k) : k < n := by
  induction n with
  | zero => cases h
  | succ n ih =>
    rw [latestFrame] at h
    split_ifs at h
    · obtain rfl : n = k := Option.some.inj h
      exact Nat.lt_succ_self n
    · exact Nat.lt_succ_of_lt (ih h)

/-- One more frame is the latest at its own index, and leaves every other index as it was. -/
theorem storedWord_succ (L : Nat) (ws : List Word) (off n i : Nat) :
    storedWord L ws off (n + 1) i = if n % L = i then frameWord ws off n else storedWord L ws off n i := by
  unfold storedWord
  rw [latestFrame]
  split_ifs <;> rfl

/-- A word received later does not change what the counted frames stored. -/
theorem storedWord_append (L : Nat) (ws : List Word) (w : Word) (off i : Nat) :
    storedWord L (ws ++ [w]) off (slotFrames off ws.length) i =
      storedWord L ws off (slotFrames off ws.length) i := by
  unfold storedWord
  cases hk : latestFrame L i (slotFrames off ws.length) with
  | none => rfl
  | some k => exact List.getD_append ws [w] 0 _ (slot_lt_of_lt_slotFrames (lt_of_latestFrame hk))

/-- The word just received, in the frame it belongs to. -/
theorem frameWord_append_self {ws : List Word} {off : Nat} (h : ws.length % 4 = off) (w : Word) :
    frameWord (ws ++ [w]) off (ws.length / 4) = w := by
  have hslot : 4 * (ws.length / 4) + off = ws.length := by omega
  rw [frameWord, hslot, List.getD_append_right _ _ _ _ le_rfl, Nat.sub_self]
  rfl

/-- What a cell holds by the law after one more word: the word, if it falls into the array's slot and the cell is its
frame's, and otherwise what it held before (R213). -/
theorem storedWord_receive {off : Nat} (hoff : off < 4) (L : Nat) (ws : List Word) (w : Word) (i : Nat) :
    storedWord L (ws ++ [w]) off (slotFrames off (ws.length + 1)) i =
      if ws.length % 4 = off ∧ ws.length / 4 % L = i then w
      else storedWord L ws off (slotFrames off ws.length) i := by
  rw [slotFrames_succ hoff, ite_and]
  split_ifs with hslot hindex
  · rw [storedWord_succ, slotFrames_eq_div hslot, if_pos hindex, frameWord_append_self hslot]
  · rw [storedWord_succ, storedWord_append, slotFrames_eq_div hslot, if_neg hindex]
  · exact storedWord_append L ws w off i

/-! ## A phase that counts its side's words -/

theorem code_toNat_inj {p q : ChannelPhase} : p.code.toNat = q.code.toNat ↔ p = q :=
  BitVec.toNat_inj.trans ⟨code_injective, congrArg _⟩

theorem code_next_of_count {p : ChannelPhase} {n : Nat} (h : p.code.toNat = n % 4) :
    p.next.code.toNat = (n + 1) % 4 := by
  rw [code_next_toNat, h, Nat.mod_add_mod]

/-- The word that ends phase `LeftBot` completes a frame's left channel (R175, R195). -/
theorem botFrames_of_count {p : ChannelPhase} {n : Nat} (h : p.code.toNat = n % 4) :
    (if p = .leftBot then botFrames n + 1 else botFrames n) = botFrames (n + 1) := by
  have hbot : p = .leftBot ↔ n % 4 = 1 := by rw [← code_toNat_inj, h]; rfl
  simp only [botFrames_eq_slotFrames, slotFrames_succ (show 1 < 4 by decide), hbot]

/-! ## What a move does to the words moved -/

/-- What the stream law reads is the same: no word has moved. -/
structure WordsKept (s t : State) : Prop where
  config : t.config = s.config
  rxPhase : t.rxPhase = s.rxPhase
  txPhase : t.txPhase = s.txPhase
  nrx : t.nrx = s.nrx
  ntx : t.ntx = s.ntx
  mem : t.mem = s.mem
  rxWords : rxWordsOf t.trace = rxWordsOf s.trace
  txWords : txWordsOf t.trace = txWordsOf s.trace

theorem WordsKept.trans {s t u : State} (h₁ : WordsKept s t) (h₂ : WordsKept t u) : WordsKept s u where
  config := h₂.config.trans h₁.config
  rxPhase := h₂.rxPhase.trans h₁.rxPhase
  txPhase := h₂.txPhase.trans h₁.txPhase
  nrx := h₂.nrx.trans h₁.nrx
  ntx := h₂.ntx.trans h₁.ntx
  mem := h₂.mem.trans h₁.mem
  rxWords := h₂.rxWords.trans h₁.rxWords
  txWords := h₂.txWords.trans h₁.txWords

theorem FramePasses.wordsKept {r : ControlRegister} {s t : State} (hf : FramePasses r s t) : WordsKept s t := by
  obtain ⟨d, rfl⟩ := hf
  obtain ⟨hrx, htx⟩ := words_of_take_frameEvents s r 5
  exact ⟨rfl, rfl, rfl, rfl, rfl, rfl, hrx, htx⟩

theorem FrameFails.wordsKept {r : ControlRegister} {s t : State} (hf : FrameFails r s t) : WordsKept s t := by
  obtain ⟨byte, level, d, rfl⟩ := hf
  obtain ⟨hrx, htx⟩ := words_of_take_frameEvents s r (byte.val + 2)
  exact ⟨rfl, rfl, rfl, rfl, rfl, rfl, hrx, htx⟩

theorem wordsKept_bringupAdvance (s : State) : WordsKept s (bringupAdvance s) := by
  rw [bringupAdvance_eq]
  exact ⟨rfl, rfl, rfl, rfl, rfl, rfl, rfl, rfl⟩

theorem wordsKept_raiseHalt (cause : FatalCause) (s : State) : WordsKept s (raiseHalt cause s) := by
  constructor <;> simp

theorem wordsKept_rxStatusRead (s : State) (pc : SchedPc) : WordsKept s { rxStatusRead s with schedPc := pc } := by
  constructor <;> simp

theorem wordsKept_txStatusRead (s : State) (pc : SchedPc) : WordsKept s { txStatusRead s with schedPc := pc } := by
  constructor <;> simp

/-- A move receives one word in the RX service position, sends one in the TX service position, or moves none (R52, R53,
R170, R190). -/
theorem Move.served_or_wordsKept {s t : State} (hmove : Move s t) :
    (s.schedPc = .rxService ∧ t = rxServed s) ∨ (s.schedPc = .txService ∧ t = txServed s) ∨ WordsKept s t := by
  obtain ⟨i, hg, he⟩ := hmove
  cases he with
  | ctrlWritePasses _ _ _ _ hf => exact .inr (.inr hf.wordsKept)
  | ctrlWriteFails _ _ _ _ hf => exact .inr (.inr hf.wordsKept)
  | bringupPasses _ u _ hf => exact .inr (.inr (hf.wordsKept.trans (wordsKept_bringupAdvance u)))
  | bringupFails _ _ _ hf => exact .inr (.inr hf.wordsKept)
  | rxLt | rxLb | rxRt | rxRb =>
    obtain ⟨-, hpc, hp⟩ := hg
    exact .inl ⟨hpc, by simp [rxServed, storedMem, hp, ChannelPhase.next]⟩
  | txLt | txLb | txRt | txRb =>
    obtain ⟨-, hpc, hp⟩ := hg
    exact .inr (.inl ⟨hpc, by simp [txServed, sentWord, hp, ChannelPhase.next]⟩)
  | rxOverrun => exact .inr (.inr ((wordsKept_rxStatusRead s s.schedPc).trans (wordsKept_raiseHalt .overrun _)))
  | rxReady => exact .inr (.inr (wordsKept_rxStatusRead s .rxService))
  | rxIdle => exact .inr (.inr (wordsKept_rxStatusRead s .txPoll))
  | txUnderrun => exact .inr (.inr ((wordsKept_txStatusRead s s.schedPc).trans (wordsKept_raiseHalt .underrun _)))
  | txReady => exact .inr (.inr (wordsKept_txStatusRead s .txService))
  | txIdle => exact .inr (.inr (wordsKept_txStatusRead s .rxPoll))
  | halt _ d =>
    have hdraws : WordsKept s { s with draws := d } := ⟨rfl, rfl, rfl, rfl, rfl, rfl, rfl, rfl⟩
    exact .inr (.inr (hdraws.trans (wordsKept_raiseHalt _ _)))

theorem rxWordsOf_rxServed (s : State) : rxWordsOf (rxServed s).trace = rxWordsOf s.trace ++ [rxWordAnswer s] :=
  rxWordsOf_append s.trace _

theorem txWordsOf_rxServed (s : State) : txWordsOf (rxServed s).trace = txWordsOf s.trace :=
  (txWordsOf_append s.trace _).trans (List.append_nil _)

theorem rxWordsOf_txServed (s : State) : rxWordsOf (txServed s).trace = rxWordsOf s.trace :=
  (rxWordsOf_append s.trace _).trans (List.append_nil _)

theorem txWordsOf_txServed (s : State) : txWordsOf (txServed s).trace = txWordsOf s.trace ++ [sentWord s] :=
  txWordsOf_append s.trace _

/-! ## The law after a move -/

theorem State.StreamLaw.wordsKept {s t : State} (h : s.StreamLaw) (hkept : WordsKept s t) : t.StreamLaw where
  rx_phase := by rw [hkept.rxPhase, hkept.rxWords]; exact h.rx_phase
  tx_phase := by rw [hkept.txPhase, hkept.txWords]; exact h.tx_phase
  rx_frames := by rw [hkept.nrx, hkept.rxWords]; exact h.rx_frames
  tx_frames := by rw [hkept.ntx, hkept.txWords]; exact h.tx_frames
  top_cells := by rw [hkept.config, hkept.mem, hkept.rxWords]; exact h.top_cells
  bot_cells := by rw [hkept.config, hkept.mem, hkept.rxWords]; exact h.bot_cells

/-- Until a frame's left words are stored, the write cursor stands at the frame's index (R211, R213). -/
theorem State.StreamLaw.wc_eq {s : State} (h : s.StreamLaw) (hwc : s.wc = s.nrx % s.config.bufLen)
    (hleft : (rxWordsOf s.trace).length % 4 < 2) :
    s.wc = (rxWordsOf s.trace).length / 4 % s.config.bufLen := by
  have hframe : botFrames (rxWordsOf s.trace).length = (rxWordsOf s.trace).length / 4 := by
    unfold botFrames
    omega
  rw [hwc, h.rx_frames, hframe]

/-- The arrays and the left phases their words arrive in (R171, R172). -/
def StoredIn (n : BufferName) (p : ChannelPhase) : Prop := n = .top ∧ p = .leftTop ∨ n = .bot ∧ p = .leftBot

theorem StoredIn.code_lt_two {n : BufferName} {p : ChannelPhase} (h : StoredIn n p) : p.code.toNat < 2 := by
  obtain ⟨-, rfl⟩ | ⟨-, rfl⟩ := h <;> decide

theorem StoredIn.iff_eq {n : BufferName} {p q : ChannelPhase} (h : StoredIn n p) : StoredIn n q ↔ q = p := by
  obtain ⟨rfl, rfl⟩ | ⟨rfl, rfl⟩ := h <;> simp [StoredIn]

/-- A receive service writes the cell the law gives the word to, and no other. -/
theorem State.StreamLaw.read_storedMem {s : State} (h : s.StreamLaw) (hwc : s.wc = s.nrx % s.config.bufLen)
    {n : BufferName} {p : ChannelPhase} (hn : StoredIn n p) (i : Nat) :
    (storedMem s).read n i =
      if (rxWordsOf s.trace).length % 4 = p.code.toNat ∧ (rxWordsOf s.trace).length / 4 % s.config.bufLen = i
      then rxWordAnswer s else s.mem.read n i := by
  have hphase : StoredIn n s.rxPhase ↔ (rxWordsOf s.trace).length % 4 = p.code.toNat := by
    rw [hn.iff_eq, ← code_toNat_inj, h.rx_phase]
  have hcell : i = s.wc ∧ StoredIn n s.rxPhase ↔
      (rxWordsOf s.trace).length % 4 = p.code.toNat ∧ (rxWordsOf s.trace).length / 4 % s.config.bufLen = i := by
    rw [and_comm, hphase]
    refine and_congr_right fun hslot => ?_
    rw [h.wc_eq hwc (hslot ▸ hn.code_lt_two), eq_comm]
  exact (Machine.read_storedMem s n i).trans (if_congr hcell rfl rfl)

/-- A cell that holds the word of its latest frame holds it after a receive service too (R213). -/
theorem State.StreamLaw.cell_rxServed {s : State} (h : s.StreamLaw) (hwc : s.wc = s.nrx % s.config.bufLen)
    {n : BufferName} {p : ChannelPhase} (hn : StoredIn n p) {i : Nat}
    (hcell : s.mem.read n i = storedWord s.config.bufLen (rxWordsOf s.trace) p.code.toNat
      (slotFrames p.code.toNat (rxWordsOf s.trace).length) i) :
    (storedMem s).read n i = storedWord s.config.bufLen (rxWordsOf s.trace ++ [rxWordAnswer s]) p.code.toNat
      (slotFrames p.code.toNat ((rxWordsOf s.trace).length + 1)) i := by
  rw [h.read_storedMem hwc hn, storedWord_receive p.code.isLt, hcell]

theorem State.StreamLaw.rxServed {s : State} (h : s.StreamLaw) (hwc : s.wc = s.nrx % s.config.bufLen) :
    (rxServed s).StreamLaw where
  rx_phase := by
    rw [rxWordsOf_rxServed, List.length_append]
    exact code_next_of_count h.rx_phase
  tx_phase := by rw [txWordsOf_rxServed]; exact h.tx_phase
  rx_frames := by
    rw [rxWordsOf_rxServed, List.length_append, List.length_singleton, ← botFrames_of_count h.rx_phase, ← h.rx_frames]
    rfl
  tx_frames := by rw [txWordsOf_rxServed]; exact h.tx_frames
  top_cells i hi := by
    rw [rxWordsOf_rxServed, List.length_append]
    exact h.cell_rxServed hwc (.inl ⟨rfl, rfl⟩) (h.top_cells i hi)
  bot_cells i hi := by
    rw [rxWordsOf_rxServed, List.length_append]
    exact h.cell_rxServed hwc (.inr ⟨rfl, rfl⟩) (h.bot_cells i hi)

theorem State.StreamLaw.txServed {s : State} (h : s.StreamLaw) : (txServed s).StreamLaw where
  rx_phase := by rw [rxWordsOf_txServed]; exact h.rx_phase
  tx_phase := by
    rw [txWordsOf_txServed, List.length_append]
    exact code_next_of_count h.tx_phase
  rx_frames := by rw [rxWordsOf_txServed]; exact h.rx_frames
  tx_frames := by
    rw [txWordsOf_txServed, List.length_append, List.length_singleton, ← botFrames_of_count h.tx_phase, ← h.tx_frames]
    rfl
  top_cells := by rw [rxWordsOf_txServed]; exact h.top_cells
  bot_cells := by rw [rxWordsOf_txServed]; exact h.bot_cells

theorem Move.streamLaw {s t : State} (hinv : s.Inv) (h : s.StreamLaw) (hmove : Move s t) : t.StreamLaw := by
  obtain ⟨-, rfl⟩ | ⟨-, rfl⟩ | hkept := hmove.served_or_wordsKept
  · exact h.rxServed hinv.wc_law
  · exact h.txServed
  · exact h.wordsKept hkept

/-- Settles O55: a reset starts the counts again with both arrays empty, and every operation a step performs keeps the
law together with the invariant, whose cursor law says which cell a word is stored in (`Move.streamLaw`). -/
theorem stepKeepsStreamLaw : Obligations.StepKeepsStreamLaw := by
  intro s t hinv hlaw h
  refine ⟨(step_keeps (P := fun u => u.Inv ∧ u.StreamLaw) ?_ ?_ ?_ ⟨hinv, hlaw⟩ h).2,
    fun hs => step_keeps_selfDriven hs h⟩
  · rintro u hwf ⟨hu, -⟩
    exact ⟨{ inv_resetOf hwf hu.list_nonempty with }, { streamLaw_resetOf u.config with }⟩
  · rintro u _ ⟨hu, hl⟩
    exact ⟨{ hu with }, { hl with }⟩
  · rintro u v ⟨hu, hl⟩ hmove
    exact ⟨hmove.inv hu, hmove.streamLaw hu hl⟩

end Sys2Proof.Machine
end

section
/-!
SUPPORT. The TX frame dispatcher (spec/43_tx_dispatcher.md R190 to R194): what each of the four operations answers. The
left words are loaded through `bufRead_in`; the right ones are silence.
-/

namespace Sys2Proof.Machine

/-- In the TX service position the phase selects the operation (R105, R190). -/
theorem nextKey_of_txService {s : State} (hm : s.mode = .run) (hpc : s.schedPc = .txService) :
    nextKey s = some (0b10#2 ++ s.txPhase.code) := by
  rw [nextKey, hm, hpc]

theorem exec_txLt_in {s : State} (h : s.rc < s.config.bufLen) :
    exec .txLt s =
      .next { txDataWrite (s.mem.read .top s.rc) s with txPhase := .leftBot, schedPc := .rxPoll } := by
  show execTxLt s = _
  rw [execTxLt, bufRead_in h]

theorem exec_txLb_in {s : State} (h : s.rc < s.config.bufLen) :
    exec .txLb s = .next { txDataWrite (s.mem.read .bot s.rc) s with
      rc := adv s.config.bufLen s.rc, ntx := s.ntx + 1, txPhase := .rightTop, schedPc := .rxPoll } := by
  show execTxLb s = _
  rw [execTxLb, bufRead_in h]

theorem exec_txRt (s : State) :
    exec .txRt s = .next { txDataWrite 0 s with txPhase := .rightBot, schedPc := .rxPoll } := rfl

theorem exec_txRb (s : State) :
    exec .txRb s = .next { txDataWrite 0 s with txPhase := .leftTop, schedPc := .rxPoll } := rfl

/-- Settles O32: the phase selects the key, and the load is one `BufRead` of `top` at `rc` (`exec_txLt_in`). -/
theorem txLtSendsTop : Obligations.TxLtSendsTop := by
  refine ⟨⟨rfl, fun s hm hpc hp => ?_⟩, fun s hrc => exec_txLt_in hrc⟩
  rw [nextKey_of_txService hm hpc, hp]; rfl

/-- Settles O33: the phase selects the key, and the load is one `BufRead` of `bot` at the cursor before its advance
(`exec_txLb_in`). -/
theorem txLbSendsBotAndAdvances : Obligations.TxLbSendsBotAndAdvances := by
  refine ⟨⟨rfl, fun s hm hpc hp => ?_⟩, fun s hrc => exec_txLb_in hrc⟩
  rw [nextKey_of_txService hm hpc, hp]; rfl

/-- Settles O34: the phases select the keys, and neither operation reads the buffer (`exec_txRt`, `exec_txRb`). -/
theorem rightChannelIsSilent : Obligations.RightChannelIsSilent := by
  refine ⟨⟨rfl, fun s hm hpc hp => ?_⟩, ⟨rfl, fun s hm hpc hp => ?_⟩, fun s => ⟨exec_txRt s, exec_txRb s⟩⟩
  · rw [nextKey_of_txService hm hpc, hp]; rfl
  · rw [nextKey_of_txService hm hpc, hp]; rfl

end Sys2Proof.Machine
end

section
/-!
SUPPORT. The delayed output (spec/43_tx_dispatcher.md R196, spec/44_echo_buffer.md R214, R215): in its window the read
cursor stands at a cell whose latest frame is the one `DELAY` frames before, so the word sent there is the delayed
input. A block left to itself makes one move a step, so the drift before the step is the drift of the word it sends.
-/

namespace Sys2Proof.Machine

/-! ## The latest frame of a cell, characterised -/

/-- A cell has no latest frame when no counted frame falls on its index. -/
theorem latestFrame_eq_none_iff {L i n : Nat} : latestFrame L i n = none ↔ ∀ k, k < n → k % L ≠ i := by
  induction n with
  | zero => simp [latestFrame]
  | succ n ih =>
    rw [latestFrame, Nat.forall_lt_succ_right, ← ih]
    split_ifs with h <;> simp [h]

/-- A counted frame at an index with no later counted frame there is the latest of its cell (R214). -/
theorem latestFrame_eq_some {L i n k : Nat} (hk : k < n) (hi : k % L = i)
    (hlast : ∀ k', k < k' → k' < n → k' % L ≠ i) : latestFrame L i n = some k := by
  induction n with
  | zero => exact absurd hk (Nat.not_lt_zero k)
  | succ n ih =>
    rw [latestFrame]
    obtain hlt | rfl := Nat.lt_succ_iff_lt_or_eq.mp hk
    · rw [if_neg (hlast n hlt n.lt_succ_self)]
      exact ih hlt fun k' h h' => hlast k' h (Nat.lt_succ_of_lt h')
    · rw [if_pos hi]

/-- Two frames less than a buffer's length apart have different indices. -/
theorem mod_ne_of_lt_of_lt_add {L k k' : Nat} (h : k < k') (h' : k' < k + L) : k' % L ≠ k % L := by
  intro hmod
  have hzero : (k' - k) % L = 0 := Nat.sub_mod_eq_zero_of_mod_eq hmod
  rw [Nat.mod_eq_of_lt (by omega)] at hzero
  omega

/-- In the window the read cursor's cell holds the input delayed by `DELAY` frames: the reset value before the first
frame, and after it the word of a frame that is stored and not yet overwritten (R214). -/
theorem storedWord_of_inWindow {c : Config} {n j : Nat} (hwf : c.wf = true) (hwin : inWindow c n j) (ws : List Word)
    (off : Nat) :
    storedWord c.bufLen ws off n ((c.bufLen - c.delay + j) % c.bufLen) = delayedWord c.delay ws off j := by
  obtain ⟨hlen, hmin, hmax, -⟩ := Config.wf_iff.mp hwf
  obtain ⟨hreceived, hkept⟩ := hwin
  unfold storedWord delayedWord
  split_ifs with hj
  · have hnone : latestFrame c.bufLen ((c.bufLen - c.delay + j) % c.bufLen) n = none := by
      rw [latestFrame_eq_none_iff, Nat.mod_eq_of_lt (by omega)]
      intro k hk
      rw [Nat.mod_eq_of_lt (by omega)]
      omega
    rw [hnone]
  · have hindex : (j - c.delay) % c.bufLen = (c.bufLen - c.delay + j) % c.bufLen := by
      rw [← Nat.add_mod_right]
      congr 1
      omega
    have hsome : latestFrame c.bufLen ((c.bufLen - c.delay + j) % c.bufLen) n = some (j - c.delay) :=
      latestFrame_eq_some (by omega) hindex fun k' hk' hn => hindex ▸ mod_ne_of_lt_of_lt_add hk' (by omega)
    rw [hsome]

/-! ## The delayed output by slots -/

/-- In the slot `off` every word sent is the delayed input, from a frame already received (R215). -/
def SlotDelayed (delay : Nat) (rx tx : List Word) (off : Nat) : Prop :=
  ∀ j, 4 * j + off < tx.length →
    tx.getD (4 * j + off) 0 = delayedWord delay rx off j ∧ (delay ≤ j → 4 * (j - delay) + off < rx.length)

/-- The words of the right channel's two slots are zero (R196). -/
def RightSilent (tx : List Word) : Prop := ∀ i, 2 ≤ i % 4 → tx.getD i 0 = 0

theorem rightSilent_iff {tx : List Word} :
    RightSilent tx ↔ ∀ j, tx.getD (4 * j + 2) 0 = 0 ∧ tx.getD (4 * j + 3) 0 = 0 := by
  refine ⟨fun h j => ⟨h _ (by omega), h _ (by omega)⟩, fun h i hi => ?_⟩
  obtain ⟨htop, hbot⟩ := h (i / 4)
  obtain hi | hi : i = 4 * (i / 4) + 2 ∨ i = 4 * (i / 4) + 3 := by omega
  · rwa [← hi] at htop
  · rwa [← hi] at hbot

theorem State.delayed_iff {s : State} : s.Delayed ↔
    SlotDelayed s.config.delay (rxWordsOf s.trace) (txWordsOf s.trace) 0 ∧
    SlotDelayed s.config.delay (rxWordsOf s.trace) (txWordsOf s.trace) 1 ∧
    RightSilent (txWordsOf s.trace) := by
  rw [rightSilent_iff]
  constructor
  · intro h
    exact ⟨fun j hj => ⟨h.top_out j hj, h.top_received j hj⟩, fun j hj => ⟨h.bot_out j hj, h.bot_received j hj⟩,
      h.silence⟩
  · rintro ⟨htop, hbot, hright⟩
    exact ⟨fun j hj => (htop j hj).1, fun j hj => (htop j hj).2, fun j hj => (hbot j hj).1, fun j hj => (hbot j hj).2,
      hright⟩

/-- A word received later leaves the delayed input of the frames sent so far as it was. -/
theorem SlotDelayed.receive {delay off : Nat} {rx tx : List Word} (h : SlotDelayed delay rx tx off) (w : Word) :
    SlotDelayed delay (rx ++ [w]) tx off := by
  intro j hj
  obtain ⟨hout, hreceived⟩ := h j hj
  refine ⟨hout.trans ?_, fun hd => ?_⟩
  · unfold delayedWord
    split_ifs with hd
    · rfl
    · exact (List.getD_append _ _ _ _ (hreceived (Nat.le_of_not_lt hd))).symm
  · rw [List.length_append]
    exact Nat.lt_add_right _ (hreceived hd)

/-- One more word sent: it has to be the delayed input if it falls into the slot. -/
theorem SlotDelayed.send {delay off : Nat} {rx tx : List Word} (h : SlotDelayed delay rx tx off) {w : Word}
    (hw : tx.length % 4 = off → w = delayedWord delay rx off (tx.length / 4) ∧
      (delay ≤ tx.length / 4 → 4 * (tx.length / 4 - delay) + off < rx.length)) (hoff : off < 4) :
    SlotDelayed delay rx (tx ++ [w]) off := by
  intro j hj
  rw [List.length_append, List.length_singleton] at hj
  obtain hlt | heq := Nat.lt_succ_iff_lt_or_eq.mp hj
  · rw [List.getD_append _ _ _ _ hlt]
    exact h j hlt
  · obtain ⟨hslot, rfl⟩ : tx.length % 4 = off ∧ j = tx.length / 4 := by omega
    rw [heq, List.getD_append_right _ _ _ _ le_rfl, Nat.sub_self]
    exact hw hslot

theorem RightSilent.send {tx : List Word} (h : RightSilent tx) {w : Word} (hw : 2 ≤ tx.length % 4 → w = 0) :
    RightSilent (tx ++ [w]) := by
  intro i hi
  obtain hlt | rfl | hgt := Nat.lt_trichotomy i tx.length
  · rw [List.getD_append _ _ _ _ hlt]
    exact h i hi
  · rw [List.getD_append_right _ _ _ _ le_rfl, Nat.sub_self]
    exact hw hi
  · rw [List.getD_eq_default]
    rw [List.length_append]
    exact hgt

/-! ## The word of a transmit service -/

/-- The array a left phase loads from (R191, R192). -/
theorem sentWord_of_storedIn {s : State} {n : BufferName} (hn : StoredIn n s.txPhase) :
    sentWord s = s.mem.read n s.rc := by
  unfold sentWord
  obtain ⟨rfl, hp⟩ | ⟨rfl, hp⟩ := hn <;> rw [hp]

/-- In the right phases the word is silence (R193, R194). -/
theorem sentWord_of_right {s : State} (h : 2 ≤ s.txPhase.code.toNat) : sentWord s = 0 := by
  unfold sentWord
  cases hp : s.txPhase with
  | leftTop => rw [hp] at h; exact absurd h (by decide)
  | leftBot => rw [hp] at h; exact absurd h (by decide)
  | rightTop => rfl
  | rightBot => rfl

/-- The law of either array, in the slot of the phase its words arrive in (R213). -/
theorem State.StreamLaw.cells {s : State} (h : s.StreamLaw) {n : BufferName} {p : ChannelPhase} (hn : StoredIn n p)
    {i : Nat} (hi : i < s.config.bufLen) :
    s.mem.read n i = storedWord s.config.bufLen (rxWordsOf s.trace) p.code.toNat
      (slotFrames p.code.toNat (rxWordsOf s.trace).length) i := by
  obtain ⟨rfl, rfl⟩ | ⟨rfl, rfl⟩ := hn
  · exact h.top_cells i hi
  · exact h.bot_cells i hi

/-- In the left phases the frames completed are all the frames before the one being sent (R195). -/
theorem State.StreamLaw.ntx_eq_div {s : State} (h : s.StreamLaw) (hleft : s.txPhase.code.toNat < 2) :
    s.ntx = (txWordsOf s.trace).length / 4 := by
  rw [h.tx_phase] at hleft
  rw [h.tx_frames]
  unfold botFrames
  omega

/-- R214 and R215 for the word about to be sent in a left phase: the delayed input. -/
theorem State.StreamLaw.sentWord_eq_delayedWord {s : State} (h : s.StreamLaw) (hinv : s.Inv) {n : BufferName}
    (hn : StoredIn n s.txPhase)
    (hwin : inWindow s.config (slotFrames s.txPhase.code.toNat (rxWordsOf s.trace).length) s.ntx) :
    sentWord s = delayedWord s.config.delay (rxWordsOf s.trace) s.txPhase.code.toNat s.ntx := by
  have hlen : 0 < s.config.bufLen := by have := Config.wf_iff.mp hinv.config_wf; omega
  have hrc : s.rc < s.config.bufLen := hinv.rc_law ▸ Nat.mod_lt _ hlen
  rw [sentWord_of_storedIn hn, h.cells hn hrc, hinv.rc_law, storedWord_of_inWindow hinv.config_wf hwin]

/-- The frame a word in the window is delayed from has been received in its slot. -/
theorem slot_received_of_inWindow {c : Config} {off n j : Nat} (hwin : inWindow c (slotFrames off n) j)
    (hd : c.delay ≤ j) : 4 * (j - c.delay) + off < n := by
  obtain ⟨hreceived, -⟩ := hwin
  exact slot_lt_of_lt_slotFrames (by omega)

/-! ## The delayed output after a move -/

theorem State.Delayed.wordsKept {s t : State} (h : s.Delayed) (hkept : WordsKept s t) : t.Delayed := by
  rw [State.delayed_iff, hkept.config, hkept.rxWords, hkept.txWords]
  exact State.delayed_iff.mp h

theorem State.Delayed.rxServed {s : State} (h : s.Delayed) : (rxServed s).Delayed := by
  obtain ⟨htop, hbot, hright⟩ := State.delayed_iff.mp h
  rw [State.delayed_iff, rxWordsOf_rxServed, txWordsOf_rxServed]
  exact ⟨htop.receive _, hbot.receive _, hright⟩

/-- A left slot stays delayed over a transmit service whose drift lies in the window if it is that slot's phase. -/
theorem SlotDelayed.txServed {s : State} {n : BufferName} {p : ChannelPhase} (hn : StoredIn n p) (hinv : s.Inv)
    (hlaw : s.StreamLaw)
    (hwin : s.txPhase = p → inWindow s.config (slotFrames p.code.toNat (rxWordsOf s.trace).length) s.ntx)
    (h : SlotDelayed s.config.delay (rxWordsOf s.trace) (txWordsOf s.trace) p.code.toNat) :
    SlotDelayed s.config.delay (rxWordsOf s.trace) (txWordsOf s.trace ++ [sentWord s]) p.code.toNat := by
  refine h.send (fun hslot => ?_) p.code.isLt
  obtain rfl : s.txPhase = p := code_toNat_inj.mp (hlaw.tx_phase.trans hslot)
  rw [← hlaw.ntx_eq_div hn.code_lt_two]
  exact ⟨hlaw.sentWord_eq_delayedWord hinv hn (hwin rfl), slot_received_of_inWindow (hwin rfl)⟩

theorem State.Delayed.txServed {s : State} (h : s.Delayed) (hinv : s.Inv) (hlaw : s.StreamLaw)
    (hpc : s.schedPc = .txService) (hdrift : s.driftInWindow) : (txServed s).Delayed := by
  obtain ⟨htop, hbot, hright⟩ := State.delayed_iff.mp h
  obtain ⟨hwinTop, hwinBot⟩ := hdrift
  rw [State.delayed_iff, rxWordsOf_txServed, txWordsOf_txServed]
  refine ⟨htop.txServed (p := .leftTop) (.inl ⟨rfl, rfl⟩) hinv hlaw (hwinTop hpc),
    hbot.txServed (p := .leftBot) (.inr ⟨rfl, rfl⟩) hinv hlaw (hwinBot hpc),
    hright.send fun hslot => sentWord_of_right ?_⟩
  rwa [hlaw.tx_phase]

theorem Move.delayed {s t : State} (hinv : s.Inv) (hlaw : s.StreamLaw) (h : s.Delayed) (hdrift : s.driftInWindow)
    (hmove : Move s t) : t.Delayed := by
  obtain ⟨-, rfl⟩ | ⟨hpc, rfl⟩ | hkept := hmove.served_or_wordsKept
  · exact h.rxServed
  · exact h.txServed hinv hlaw hpc hdrift
  · exact h.wordsKept hkept

/-- A step of a block left to itself is the reset event or a single operation: `next_op` never selects the composite
(R105, R235). -/
theorem step_selfDriven_move {s t : State} (hself : s.selfDriven) (h : step s = .next t) :
    t = takeReset s ∨ Move (s.taken []) t := by
  obtain ⟨-, ⟨-, ht⟩ | ⟨-, hm, i, rest, hp, hexec, hkey⟩⟩ := step_eq_next h
  · exact .inl ht
  · obtain ⟨hi, rfl⟩ := hkey hself
    obtain ⟨-, hmove⟩ | ⟨rfl, -⟩ := moves_of_exec (s := s.taken []) hp hm hexec
    · exact .inr hmove
    · obtain ⟨-, hne, -⟩ := performedWhen_of_nextKey hi
      exact absurd rfl hne

/-- Settles O59: a reset starts with no word sent, and the one move of the step (`step_selfDriven_move`) sends its word,
if any, with the drift of the state before it (`Move.delayed`). -/
theorem stepKeepsDelayedOutputs : Obligations.StepKeepsDelayedOutputs := by
  intro s t hinv hlaw h hself hdrift hstep
  obtain rfl | hmove := step_selfDriven_move hself hstep
  · exact { delayed_resetOf s.config with }
  · have hinv' : (s.taken []).Inv := { hinv with }
    have hlaw' : (s.taken []).StreamLaw := { hlaw with }
    have h' : (s.taken []).Delayed := { h with }
    exact hmove.delayed hinv' hlaw' h' hdrift

end Sys2Proof.Machine
end

section
/-!
SUPPORT. The echo buffer as a fixed-delay tap (spec/44_echo_buffer.md R211, R213, R214): the cursors follow the frame
counts in every state a run reaches, a cell's latest frame is determined by its index, and a left transmit service sends
the word of the latest frame at the read cursor.
-/

namespace Sys2Proof.Machine

/-! ## The cursors along a run -/

/-- The induction over a run: what every step keeps holds in every state a run reaches. -/
theorem run_keeps {P : State → Prop} (hstep : ∀ u v, P u → step u = .next v → P v) {n : Nat} {s t : State} (hs : P s)
    (hrun : Host.Core.run Sys2Proof.core n s = .next t) : P t := by
  induction n generalizing s with
  | zero => cases hrun; exact hs
  | succ n ih =>
    cases hu : step s with
    | next u => exact ih (hstep s u hs hu) (run_succ_next hu n ▸ hrun)
    | fault r => rw [run_succ_fault hu] at hrun; cases hrun
    | refused r => rw [run_succ_refused hu] at hrun; cases hrun

/-- The distance between the cursors by the frame counts (R211): the `BUF_LEN` in the read cursor's start is a whole
turn. -/
theorem trail_of_counts {L D : Nat} (hD : D ≤ L) (nrx ntx : Nat) :
    (((nrx % L : Nat) : Int) - ((L - D + ntx) % L : Nat)) % L = ((D : Int) + nrx - ntx) % L := by
  have hturn : (D : Int) + nrx - ntx = nrx - (L - D + ntx : Nat) + L := by omega
  rw [hturn, Int.add_emod_right, Int.natCast_mod, Int.natCast_mod, ← Int.sub_emod]

/-- Settles O54: every step keeps the parameters and the invariant (`run_keeps`), whose cursor laws give the trail by
`trail_of_counts`; with equal counts it is `DELAY`, which R10 has below `BUF_LEN`. -/
theorem cursorTrailFollowsFrameCounts : Obligations.CursorTrailFollowsFrameCounts := by
  intro s t n hs hrun
  obtain ⟨hconfig, ht⟩ : t.config = s.config ∧ t.Inv :=
    run_keeps (P := fun u => u.config = s.config ∧ u.Inv)
      (fun u v ⟨hu, hinv⟩ hstep => ⟨(parametersNeverChange u v hstep).trans hu, stepKeepsInvariant u v hinv hstep⟩)
      ⟨rfl, hs⟩ hrun
  obtain ⟨hlen, -, hmax, -⟩ := Config.wf_iff.mp hs.config_wf
  have hwc : t.wc = t.nrx % s.config.bufLen := hconfig ▸ ht.wc_law
  have hrc : t.rc = (s.config.bufLen - s.config.delay + t.ntx) % s.config.bufLen := hconfig ▸ ht.rc_law
  have htrail : ((t.wc : Int) - t.rc) % s.config.bufLen =
      ((s.config.delay : Int) + t.nrx - t.ntx) % s.config.bufLen := by
    rw [hwc, hrc, trail_of_counts (by omega)]
  refine ⟨hconfig, hwc, hrc, htrail, fun hequal => ?_⟩
  rw [htrail, hequal, Int.add_sub_cancel]
  exact Int.emod_eq_of_lt (by omega) (by omega)

/-! ## The latest frame -/

/-- The converse of `latestFrame_eq_some`. -/
theorem latest_of_latestFrame {L i n k : Nat} (h : latestFrame L i n = some k) :
    k < n ∧ k % L = i ∧ ∀ k', k < k' → k' < n → k' % L ≠ i := by
  refine ⟨lt_of_latestFrame h, ?_⟩
  induction n with
  | zero => cases h
  | succ n ih =>
    rw [latestFrame] at h
    split_ifs at h with hn
    · obtain rfl : n = k := Option.some.inj h
      exact ⟨hn, fun k' hlt hle => absurd hlt (Nat.not_lt_of_le (Nat.le_of_lt_succ hle))⟩
    · obtain ⟨hi, hlast⟩ := ih h
      refine ⟨hi, fun k' hlt hle => ?_⟩
      obtain hlt' | rfl := Nat.lt_succ_iff_lt_or_eq.mp hle
      · exact hlast k' hlt hlt'
      · exact hn

theorem latestFrame_eq_some_iff {L i n k : Nat} :
    latestFrame L i n = some k ↔ k < n ∧ k % L = i ∧ ∀ k', k < k' → k' < n → k' % L ≠ i :=
  ⟨latest_of_latestFrame, fun ⟨hk, hi, hlast⟩ => latestFrame_eq_some hk hi hlast⟩

/-- Settles O57: the two answers, each characterised by induction on the number of frames. -/
theorem latestFrameIsTheLatest : Obligations.LatestFrameIsTheLatest :=
  fun _ _ _ => ⟨fun _ => latestFrame_eq_some_iff, latestFrame_eq_none_iff⟩

/-- A frame is the latest of its own cell as long as it is stored and the frame one buffer's length later is not
(R214). -/
theorem latestFrame_own_index_iff {L n k : Nat} (hL : 0 < L) :
    latestFrame L (k % L) n = some k ↔ k < n ∧ n ≤ k + L := by
  rw [latestFrame_eq_some_iff]
  constructor
  · rintro ⟨hk, -, hlast⟩
    refine ⟨hk, Nat.le_of_not_lt fun hn => ?_⟩
    exact hlast (k + L) (Nat.lt_add_of_pos_right hL) hn (Nat.add_mod_right k L)
  · rintro ⟨hk, hn⟩
    exact ⟨hk, rfl, fun k' hlt hlt' => mod_ne_of_lt_of_lt_add hlt (hlt'.trans_le hn)⟩

/-- The latest frame at TX frame `j`'s index is frame `j − DELAY` exactly in the window (R214). -/
theorem latestFrame_eq_delayed_iff {c : Config} (hwf : c.wf = true) {n j : Nat} (hj : c.delay ≤ j) :
    latestFrame c.bufLen ((j + c.bufLen - c.delay) % c.bufLen) n = some (j - c.delay) ↔ inWindow c n j := by
  obtain ⟨hlen, -, -, -⟩ := Config.wf_iff.mp hwf
  have hindex : (j + c.bufLen - c.delay) % c.bufLen = (j - c.delay) % c.bufLen := by
    rw [Nat.sub_add_comm hj, Nat.add_mod_right]
  rw [hindex, latestFrame_own_index_iff (by omega), inWindow]
  omega

/-! ## The word a left transmit service sends -/

/-- TX frame `j` reads index `(j − DELAY) mod BUF_LEN` (R211, R213). -/
theorem State.Inv.rc_eq {s : State} (h : s.Inv) :
    s.rc = (s.ntx + s.config.bufLen - s.config.delay) % s.config.bufLen := by
  obtain ⟨-, -, hmax, -⟩ := Config.wf_iff.mp h.config_wf
  rw [h.rc_law]
  congr 1
  omega

theorem State.Inv.rc_lt {s : State} (h : s.Inv) : s.rc < s.config.bufLen := by
  obtain ⟨hlen, -, -, -⟩ := Config.wf_iff.mp h.config_wf
  exact h.rc_law ▸ Nat.mod_lt _ (by omega)

/-- In a left phase the selected TX operation answers a next state and sends the word of the latest frame at its index,
which in the window is the delayed input (R213, R214). -/
theorem State.StreamLaw.exec_txOperation_left {s : State} (h : s.StreamLaw) (hinv : s.Inv) {n : BufferName}
    {p : ChannelPhase} (hp : s.txPhase = p) (hn : StoredIn n p) :
    ∃ t, exec (txOperation p) s = .next t ∧
      t.trace = s.trace ++ [.txDataWrite (storedWord s.config.bufLen (rxWordsOf s.trace) p.code.toNat
        (slotFrames p.code.toNat (rxWordsOf s.trace).length)
        ((s.ntx + s.config.bufLen - s.config.delay) % s.config.bufLen))] ∧
      (inWindow s.config (slotFrames p.code.toNat (rxWordsOf s.trace).length) s.ntx →
        t.trace = s.trace ++ [.txDataWrite (delayedWord s.config.delay (rxWordsOf s.trace) p.code.toNat s.ntx)]) := by
  subst hp
  have hsent : (Machine.txServed s).trace = s.trace ++ [.txDataWrite (sentWord s)] := rfl
  refine ⟨Machine.txServed s, (exec_txOperation s).trans (txService_in hinv.rc_lt), ?_, fun hwin => ?_⟩
  · rw [hsent, sentWord_of_storedIn hn, h.cells hn hinv.rc_lt, ← hinv.rc_eq]
  · rw [hsent, h.sentWord_eq_delayedWord hinv hn hwin]

/-- Settles O58: the two left phases are one lemma over the phase (`State.StreamLaw.exec_txOperation_left`), and the
window is `latestFrame_eq_delayed_iff`. -/
theorem txFrameSendsLatestStored : Obligations.TxFrameSendsLatestStored := by
  intro s hinv hlaw
  refine ⟨fun hp => ?_, fun hp => ?_, fun n j hj => latestFrame_eq_delayed_iff hinv.config_wf hj⟩
  · exact hlaw.exec_txOperation_left hinv hp (.inl ⟨rfl, rfl⟩)
  · exact hlaw.exec_txOperation_left hinv hp (.inr ⟨rfl, rfl⟩)

end Sys2Proof.Machine
end

section
/-!
SUPPORT. The scheduler's polls (spec/45_scheduler.md R232 to R235, R240): each reads its status once, its fault flag
wins over `ready`, and an overrun ends the iteration and the block at that read.
-/

namespace Sys2Proof.Machine

/-! ## Where a poll is selected -/

theorem nextKey_of_rxPoll {s : State} (hm : s.mode = .run) (hpc : s.schedPc = .rxPoll) :
    nextKey s = some Instr.rxPoll.key := by
  rw [nextKey, hm, hpc]
  rfl

theorem nextKey_of_txPoll {s : State} (hm : s.mode = .run) (hpc : s.schedPc = .txPoll) :
    nextKey s = some Instr.txPoll.key := by
  rw [nextKey, hm, hpc]
  rfl

/-! ## A poll by the flags it reads -/

theorem rxVerdict_of_ovr {st : RxStatus} (h : st.ovr = true) : rxVerdict st = .fault := if_pos h

theorem txVerdict_of_udr {st : TxStatus} (h : st.udr = true) : txVerdict st = .fault := if_pos h

theorem exec_rxPoll_of_ovr {s : State} (h : (rxStatusAnswer s).ovr = true) :
    exec .rxPoll s = .next (raiseHalt .overrun (rxStatusRead s)) :=
  execRxPoll_fault (rxVerdict_of_ovr h)

theorem exec_txPoll_of_udr {s : State} (h : (txStatusAnswer s).udr = true) :
    exec .txPoll s = .next (raiseHalt .underrun (txStatusRead s)) :=
  execTxPoll_fault (txVerdict_of_udr h)

theorem exec_rxPoll_of_no_ovr {s : State} (h : (rxStatusAnswer s).ovr = false) :
    exec .rxPoll s = .next { rxStatusRead s with
      schedPc := if (rxStatusAnswer s).ready = true then .rxService else .txPoll } := by
  have hv := rxVerdict_of_no_fault h
  cases hready : (rxStatusAnswer s).ready with
  | true => exact execRxPoll_service (by rw [hv, if_pos hready])
  | false => exact execRxPoll_idle (by simp [hv, hready])

theorem exec_txPoll_of_no_udr {s : State} (h : (txStatusAnswer s).udr = false) :
    exec .txPoll s = .next { txStatusRead s with
      schedPc := if (txStatusAnswer s).ready = true then .txService else .rxPoll } := by
  have hv := txVerdict_of_no_fault h
  cases hready : (txStatusAnswer s).ready with
  | true => exact execTxPoll_service (by rw [hv, if_pos hready])
  | false => exact execTxPoll_idle (by simp [hv, hready])

/-- Settles O35: the control state selects the poll; its outcome is `exec_rxPoll_of_no_ovr` or, whatever `ready` is,
`exec_rxPoll_of_ovr`. -/
theorem rxPollDecides : Obligations.RxPollDecides :=
  ⟨⟨rfl, fun _ => nextKey_of_rxPoll⟩, fun _ => ⟨rfl, exec_rxPoll_of_no_ovr, exec_rxPoll_of_ovr⟩⟩

/-- Settles O36: the control state selects the poll; its outcome is `exec_txPoll_of_no_udr` or, whatever `ready` is,
`exec_txPoll_of_udr`. -/
theorem txPollDecides : Obligations.TxPollDecides :=
  ⟨⟨rfl, fun _ => nextKey_of_txPoll⟩, fun _ => ⟨rfl, exec_txPoll_of_no_udr, exec_txPoll_of_udr⟩⟩

/-! ## The composite's requirement, and its first access -/

/-- Settles O39: the composite's one branch with a meaning is at mode `Run` and `RX_POLL` (R235, log 11). -/
theorem schedStepNeedsLoopStart : Obligations.SchedStepNeedsLoopStart := by
  intro s hs
  show execSchedStep s = _
  unfold execSchedStep
  split
  next hm hpc => exact absurd ⟨hm, hpc⟩ hs
  next => rfl

/-- Settles O40: with the overrun flag set the receive poll halts, and the composite ends there
(`execSchedStep_fault`). -/
theorem overrunIsFoundFirst : Obligations.OverrunIsFoundFirst :=
  fun _ hm hpc hovr => execSchedStep_fault hm hpc (rxVerdict_of_ovr hovr)

/-! ## An overrun stops the block -/

/-- At `RX_POLL`, with no reset and nothing presented, a step is the receive poll (R105). -/
theorem step_of_rxPoll {s : State} (hwf : s.config.wf = true) (hquiet : s.quiet) (hself : s.selfDriven)
    (hm : s.mode = .run) (hpc : s.schedPc = .rxPoll) : step s = exec .rxPoll (resetPassed s) :=
  selfDrivenStepRunsNextOp s .rxPoll ⟨hwf, resetNow_of_quiet hquiet⟩ hself (nextKey_of_rxPoll hm hpc)

/-- Settles O41: the step is the receive poll (`step_of_rxPoll`), which on an overrun makes its one read and halts
(`exec_rxPoll_of_ovr`); no step follows a halt (`run_of_halted`). -/
theorem overrunStopsTheBlock : Obligations.OverrunStopsTheBlock := by
  intro s hwf hquiet hself hm hpc hovr
  have hpoll : step s = .next (raiseHalt .overrun (rxStatusRead (resetPassed s))) :=
    (step_of_rxPoll hwf hquiet hself hm hpc).trans (exec_rxPoll_of_ovr hovr)
  exact ⟨_, hpoll, rfl, rfl, rfl, rfl, rfl, rfl, rfl, run_of_halted hwf hquiet.resetPassed rfl⟩

end Sys2Proof.Machine
end

section
/-!
SUPPORT. The fatal halt (spec/60_exceptions.md R262), and the reference stream (R277): its overrun flag is sticky, and
the block's next receive poll halts on it (R295).
-/

namespace Sys2Proof.Machine

/-! ## `HALT` with its cause -/

theorem nextKey_raiseHalt (cause : FatalCause) (s : State) : nextKey (raiseHalt cause s) = none :=
  nextKey_eq_none.mpr (raiseHalt_mode cause s)

/-- Settles O43: `HALT` with its operand raises that halt at once; the halt writes no more than `raiseHalt_eq` says, and
`cs_n` only on a bus fault (`raiseHalt_csN`). -/
theorem haltEntersHalted : Obligations.HaltEntersHalted :=
  ⟨rfl, fun c s => ⟨raiseHalt c s, rfl, nextKey_raiseHalt c s, fun hc => raiseHalt_csN hc s, raiseHalt_eq c s⟩⟩

/-! ## The stream's receive side -/

/-- After a word arrives the register is full, whether the word was stored or lost (R277). -/
theorem rxArrive_rxne (c : Config) (w : Nat) (st : Stream) : (rxArrive c w st).rx.rxne = true := by
  cases hfull : st.rx.rxne <;> simp [rxArrive, hfull]

/-- A word that meets a full register sets the overrun flag (R277). -/
theorem rxArrive_ovr_of_rxne {st : Stream} (hfull : st.rx.rxne = true) (c : Config) (w : Nat) :
    (rxArrive c w st).rx.ovr = true := by
  simp [rxArrive, hfull]

theorem rxArrive_ovr_of_ovr {st : Stream} (hovr : st.rx.ovr = true) (c : Config) (w : Nat) :
    (rxArrive c w st).rx.ovr = true := by
  cases hfull : st.rx.rxne with
  | true => exact rxArrive_ovr_of_rxne hfull c w
  | false => simpa [rxArrive, hfull] using hovr

/-- A transmit slot does not touch the receive side (R277). -/
@[simp] theorem txSlot_rx (c : Config) (st : Stream) : (txSlot c st).rx = st.rx := by
  cases hempty : st.tx.txe <;> simp [txSlot, hempty]

/-- The overrun flag is sticky: no event of the stream clears it (R277). -/
theorem streamEvent_ovr {st : Stream} (hovr : st.rx.ovr = true) (c : Config) (e : StreamEvent) :
    (streamEvent c e st).rx.ovr = true := by
  cases e with
  | rxArrive w => exact rxArrive_ovr_of_ovr hovr c w
  | txSlot => simpa [streamEvent] using hovr

/-! ## Events between two steps of the block -/

@[simp] theorem closedEvent_block (e : StreamEvent) (c : Closed) : (closedEvent e c).block = c.block := rfl

/-- Two words with no read between them overrun the stream, whatever it held before (R277). -/
theorem closedEvent_two_rxArrive_ovr (w w' : Nat) (c : Closed) :
    (closedEvent (.rxArrive w') (closedEvent (.rxArrive w) c)).stream.rx.ovr = true :=
  rxArrive_ovr_of_rxne (rxArrive_rxne c.block.config w c.stream) c.block.config w'

theorem foldl_closedEvent_block (es : List StreamEvent) (c : Closed) :
    (es.foldl (fun x e => closedEvent e x) c).block = c.block := by
  induction es generalizing c with
  | nil => rfl
  | cons e es ih => exact ih (closedEvent e c)

theorem foldl_closedEvent_ovr (es : List StreamEvent) {c : Closed} (hovr : c.stream.rx.ovr = true) :
    (es.foldl (fun x e => closedEvent e x) c).stream.rx.ovr = true := by
  induction es generalizing c with
  | nil => exact hovr
  | cons e es ih => exact ih (streamEvent_ovr hovr c.block.config e)

/-! ## The poll against the stream -/

/-- The status the block's receive poll reads is the stream's (R277). -/
theorem rxStatusAnswer_offered (st : Stream) (s : State) :
    rxStatusAnswer (resetPassed (offerAnswers st s)) = ⟨st.rx.rxne, st.rx.ovr⟩ := rfl

theorem closedStep_of_next {c : Closed} {t : State} (h : step (offerAnswers c.stream c.block) = .next t) :
    closedStep c = .next ⟨t, (t.trace.drop c.block.trace.length).foldl streamAccess c.stream⟩ := by
  rw [closedStep, h]

/-- At `RX_POLL` against an overrun stream the next step halts with `Overrun` and reads no word (R232, R295). -/
theorem closedStep_of_ovr {c : Closed} (hrun : c.block.running) (hself : c.block.selfDriven) (hm : c.block.mode = .run)
    (hpc : c.block.schedPc = .rxPoll) (hovr : c.stream.rx.ovr = true) :
    ∃ c', closedStep c = .next c' ∧ c'.block.mode = .halted ∧ c'.block.haltCause = some .overrun ∧
      rxWordsOf c'.block.trace = rxWordsOf c.block.trace := by
  have hpoll : step (offerAnswers c.stream c.block) = exec .rxPoll (resetPassed (offerAnswers c.stream c.block)) :=
    selfDrivenStepRunsNextOp _ .rxPoll hrun hself (nextKey_of_rxPoll hm hpc)
  have hread : (rxStatusAnswer (resetPassed (offerAnswers c.stream c.block))).ovr = true := by
    rw [rxStatusAnswer_offered, hovr]
  have hnext := closedStep_of_next (hpoll.trans (exec_rxPoll_of_ovr hread))
  refine ⟨_, hnext, raiseHalt_mode .overrun _, raiseHalt_haltCause .overrun _, ?_⟩
  rw [raiseHalt_trace, rxStatusRead_trace, rxWordsOf_append, rxWordsOf_rxStatusRead, List.append_nil]
  rfl

/-- Settles O60: the second word overruns the stream (`closedEvent_two_rxArrive_ovr`), no event clears the flag or
touches the block, and the poll halts on it (`closedStep_of_ovr`). -/
theorem twoUnreadWordsOverrun : Obligations.TwoUnreadWordsOverrun := by
  intro c w w' es hrun hself hm hpc
  have hovr := foldl_closedEvent_ovr es (closedEvent_two_rxArrive_ovr w w' c)
  have hblock := foldl_closedEvent_block es (closedEvent (.rxArrive w') (closedEvent (.rxArrive w) c))
  rw [closedEvent_block, closedEvent_block] at hblock
  rw [← hblock] at hrun hself hm hpc ⊢
  exact closedStep_of_ovr hrun hself hm hpc hovr

end Sys2Proof.Machine
end

section
/-!
SUPPORT. The first operation after a reset (spec/70_reset_and_hazards.md R291).
-/

namespace Sys2Proof.Machine

theorem step_eq_next_of_resetNow {s t : State} (hr : resetNow s = true) (h : step s = .next t) :
    s.config.wf = true ∧ t = takeReset s := by
  obtain ⟨hwf, ⟨-, ht⟩ | ⟨hr', -⟩⟩ := step_eq_next h
  · exact ⟨hwf, ht⟩
  · exact absurd (hr.symm.trans hr') (by decide)

/-- Settles O16: the reset event leaves `Boot` with `boot_idx` 0, which selects `BRINGUP_STEP`, and drops what a harness
had presented, so a step that is no further reset (R278) is the selected operation (`selfDrivenStepRunsNextOp`). -/
theorem firstOperationAfterReset : Obligations.FirstOperationAfterReset := by
  intro s t hr h
  obtain ⟨hwf, rfl⟩ := step_eq_next_of_resetNow hr h
  have hkey : nextKey (takeReset s) = some Instr.bringupStep.key := nextKey_of_boot (takeReset_mode s)
  have hidx : (takeReset s).bootIdx = 0 := takeReset_bootIdx s
  refine ⟨hkey, hidx, by rw [bringupOperand, hidx], fun hpass => ?_⟩
  have hrun : (takeReset s).running := ⟨hwf, hpass⟩
  exact selfDrivenStepRunsNextOp _ .bringupStep hrun (takeReset_harness s) hkey

end Sys2Proof.Machine
end
